-- ==== Sys2Proof/Word.lean ====
section
/-! DEFINITION. The data widths of the block: every data path is one byte wide (R10), and the one wider operand,
`xPos` of the create-region helper, is sixteen bits wide (R10, R41). -/

namespace Sys2Proof

/-- One byte: an unsigned 8-bit value, bit 0 the least significant (R10, R11). -/
abbrev Byte := BitVec 8

/-- The 16-bit operand `xPos` of the create-region helper (R10, R41). -/
abbrev Half := BitVec 16

end Sys2Proof
end

