-- ==== Sys2Proof/Machine/Checksum.lean ====
section
/-! DEFINITION. The 8-bit additive checksum (R17, R55, R95): computed exactly on natural numbers, then narrowed. -/

namespace Sys2Proof.Machine

/-- `lo8(v)`: `v mod 256` as a byte (R11). -/
def lo8 (v : Nat) : Byte := BitVec.ofNat 8 v

/-- The unbounded sum of a byte list's elements (R11, R12). -/
def byteSum (l : List Byte) : Nat := (l.map BitVec.toNat).sum

/-- `sum8(l)`: the low eight bits of the sum of a byte list (R12). -/
def sum8 (l : List Byte) : Byte := lo8 (byteSum l)

/-- `CSUM(len, body)`: the checksum of the length byte and the body (R95); validator and generator use this one
function. -/
def csum (len : Byte) (body : List Byte) : Byte := sum8 (len :: body)

end Sys2Proof.Machine
end

