-- ==== Sys2Proof/Machine/Constants.lean ====
section
/-! DEFINITION. The fixed parameters of R8 and the command and reply codes of R61 and R64. The source's literals are
unaudited (R5, 93 section 3); the spec transcribes them and so does the model (UNVERIFIED, note 10,
unsafe). -/

namespace Sys2Proof.Machine

/-- `SYNC_LEN` (R8). -/
def syncLen : Nat := 4
/-- `LEN_MIN` (R8, R53). -/
def lenMin : Nat := 0x01
/-- `LEN_MAX` (R8, R53). -/
def lenMax : Nat := 0xFE
/-- `PAYLOAD_MAX` (R8, R60). -/
def payloadMax : Nat := 252
/-- The longest text of a create-region frame (R116, R117): the 11 fixed bytes come before it. -/
def createTextMax : Nat := 241
/-- `BUF_CAP` (R8, R24): the most bytes the assembly buffer reaches within a step. -/
def bufCap : Nat := lenMax + 1
/-- The pad byte the encoder sends (R52, R59). -/
def padByte : Byte := 0x00

/-- CREATE_REGION (R61). -/
def cmdCreateRegion : Byte := 0x10
/-- CHANGE_REGION (R61). -/
def cmdChangeRegion : Byte := 0x11
/-- CLEAR_REGION (R61). -/
def cmdClearRegion : Byte := 0x60
/-- DRAW_REGION (R61). -/
def cmdDrawRegion : Byte := 0x70
/-- ACK (R61). -/
def cmdAck : Byte := 0xFF
/-- ERROR (R61). -/
def cmdError : Byte := 0xFE

/-- `CODE_REGION_EXISTS` (R8, R64): an error code of an error frame's payload, not a command (R63). -/
def codeRegionExists : Byte := 0x33

end Sys2Proof.Machine
end

