-- ==== Sys2Proof/Syntax.lean ====
section
/-! DEFINITION. The frame record (R65), the operation alphabet of the block's port (R67) and the binary form in which
an operation is presented at that port (R68). -/

namespace Sys2Proof

/-- A decoded frame, exposed as a record (R65). -/
structure Frame where
  /-- the accepted length byte -/
  length : Byte
  /-- body byte 0 -/
  command : Byte
  /-- body byte 1 when the length is at least 2, absent in a minimal frame -/
  pad : Option Byte
  /-- body bytes 2 and onward -/
  payload : List Byte
  /-- the received checksum byte -/
  checksum : Byte
  deriving DecidableEq, Repr

/-- The operations a host presents at the block's port, one constructor for each row of the opcode table (R67). -/
inductive Instr where
  /-- `RXB b`: one byte received from the transport (R77). -/
  | rxb (b : Byte)
  /-- `TXF cmd, payload`: encode and send one frame (R105). -/
  | txf (cmd : Byte) (payload : List Byte)
  /-- `TXR bytes`: send bytes raw (R108). -/
  | txr (bytes : List Byte)
  /-- `RST`: reset the receive state (R151). -/
  | rst
  /-- `CRE`: build and send a create-region frame (R117). -/
  | cre (regionID sub0 sub1 : Byte) (xPos : Half) (yPos width fontStyle : Byte) (text : List Byte)
  /-- `CHG`: build and send a change-region frame (R121). -/
  | chg (regionID sub0 sub1 visible style : Byte) (text : List Byte)
  /-- `DRW regionID, flag`: build and send a draw-region frame (R124). -/
  | drw (regionID flag : Byte)
  /-- `CLR regionID, flag`: build and send a clear-region frame (R126). -/
  | clr (regionID flag : Byte)
  /-- `CLS f`: classify a decoded frame (R130). -/
  | cls (f : Frame)
  deriving DecidableEq, Repr

/-- One operation as it stands at the port: the operation word, whose bits 3 to 0 select the operation, and the
operands that travel beside it (R68): eight byte lanes for the operands of fixed width and one list lane for the
operand of variable length. The width of the word and the lanes are the model's own (DESIGN CHOICE, note 4, unsafe).
-/
structure PortOp where
  /-- the operation word; bits 3 to 0 are the op-select (R68) -/
  word : Byte
  lane0 : Byte := 0
  lane1 : Byte := 0
  lane2 : Byte := 0
  lane3 : Byte := 0
  lane4 : Byte := 0
  lane5 : Byte := 0
  lane6 : Byte := 0
  lane7 : Byte := 0
  /-- the list operand: `payload`, `bytes`, `text`, or a frame's body after its command byte -/
  bytes : List Byte := []
  deriving DecidableEq, Repr

end Sys2Proof
end

