-- ==== Sys2Proof/Machine/Frame.lean ====
section
/-! DEFINITION. Frame construction, the frame record's invariant and its wire image (R54, R66, R94, R105). -/

namespace Sys2Proof

/-- The body of a frame: command, pad (when there is one), payload (R54). -/
def Frame.body (f : Frame) : List Byte := f.command :: (f.pad.toList ++ f.payload)

/-- `wire(f)`: length byte, body, checksum (R66). -/
def Frame.wire (f : Frame) : List Byte := f.length :: (f.body ++ [f.checksum])

/-- `VALID(f)` (R66). -/
abbrev Frame.Valid (f : Frame) : Prop :=
  (Machine.lenMin ≤ f.length.toNat ∧ f.length.toNat ≤ Machine.lenMax)
    ∧ (f.pad = none ↔ f.length = 1)
    ∧ f.payload.length = (if 2 ≤ f.length.toNat then f.length.toNat - 2 else 0)
    ∧ f.checksum = Machine.sum8 (f.length :: f.body)

namespace Machine

/-- `MKFRAME(len, body, chk)` (R94). The rule is for a body of `len ≥ 1` bytes, so the default of `headD` is never
read in a state that R26 admits (DESIGN CHOICE, note 7, safe). -/
def mkFrame (len : Byte) (body : List Byte) (chk : Byte) : Frame where
  length := len
  command := body.headD 0
  pad := if 2 ≤ len.toNat then body[1]? else none
  payload := (body.take len.toNat).drop 2
  checksum := chk

/-- The one valid frame whose body is the given one: its length byte and checksum follow from the body (R55, R66). -/
def frameOfBody (body : List Byte) : Frame :=
  mkFrame (lo8 body.length) body (csum (lo8 body.length) body)

/-- `ENCODE(cmd, payload)`: length, command, zero pad, payload, checksum (R105). -/
def encodeFrame (cmd : Byte) (payload : List Byte) : List Byte :=
  let len := lo8 (2 + payload.length)
  let body := [cmd, padByte] ++ payload
  [len] ++ body ++ [csum len body]

end Machine

end Sys2Proof
end

