-- ==== Sys2Proof/Decode.lean ====
section
/-! DEFINITION. Decoding of an operation presented at the port (R68), total and rejecting by name, and the encoder.

The op-selects are those of R68. How the operands lie in the lanes beside the word is the model's own (DESIGN CHOICE,
note 4): fixed operands stand in the lanes in the order of R67's table, `xPos` low byte first, the list operand in the
list lane. A `CLS` frame is presented by its body alone (command in lane 0, the rest in the list lane): a valid
frame's length byte and checksum follow from its body (R66), so that only valid frames can be presented (R69). -/

namespace Sys2Proof

/-- Why a presented operation has no meaning. -/
inductive DecodeError where
  /-- the op-select is one of the reserved ones, 0x4 to 0x7 and 0xD to 0xF (R73) -/
  | reservedOp (select : Nat)
  /-- the body presented to `CLS` is longer than any valid frame's (R66, R69) -/
  | notAFrame (bodyLength : Nat)
  deriving DecidableEq, Repr

/-- The op-select: bits 3 to 0 of the operation word (R68). -/
def opSelect (word : Byte) : Nat := (word.extractLsb' 0 4).toNat

/-- Bits 7 to 0 of a 16-bit operand. -/
def halfLo (x : Half) : Byte := x.extractLsb' 0 8

/-- Bits 15 to 8 of a 16-bit operand. -/
def halfHi (x : Half) : Byte := x.extractLsb' 8 8

/-- The 16-bit operand with the given high and low byte. -/
def halfOf (hi lo : Byte) : Half := BitVec.ofNat 16 (hi.toNat * 256 + lo.toNat)

/-- The operation a presented word and its operands stand for (R67, R68). -/
def decode (p : PortOp) : Except DecodeError Instr :=
  match opSelect p.word with
  | 0x0 => .ok (.rxb p.lane0)
  | 0x1 => .ok (.txf p.lane0 p.bytes)
  | 0x2 => .ok (.txr p.bytes)
  | 0x3 => .ok .rst
  | 0x8 => .ok (.cre p.lane0 p.lane1 p.lane2 (halfOf p.lane4 p.lane3) p.lane5 p.lane6 p.lane7 p.bytes)
  | 0x9 => .ok (.chg p.lane0 p.lane1 p.lane2 p.lane3 p.lane4 p.bytes)
  | 0xA => .ok (.drw p.lane0 p.lane1)
  | 0xB => .ok (.clr p.lane0 p.lane1)
  | 0xC =>
    let body := p.lane0 :: p.bytes
    if body.length ≤ Machine.lenMax then .ok (.cls (Machine.frameOfBody body)) else .error (.notAFrame body.length)
  | n => .error (.reservedOp n)

/-- The word and operands that present an operation (R67, R68). -/
def encode : Instr → PortOp
  | .rxb b => { word := 0x0, lane0 := b }
  | .txf cmd payload => { word := 0x1, lane0 := cmd, bytes := payload }
  | .txr bytes => { word := 0x2, bytes := bytes }
  | .rst => { word := 0x3 }
  | .cre regionID sub0 sub1 xPos yPos width fontStyle text =>
    { word := 0x8, lane0 := regionID, lane1 := sub0, lane2 := sub1, lane3 := halfLo xPos, lane4 := halfHi xPos,
      lane5 := yPos, lane6 := width, lane7 := fontStyle, bytes := text }
  | .chg regionID sub0 sub1 visible style text =>
    { word := 0x9, lane0 := regionID, lane1 := sub0, lane2 := sub1, lane3 := visible, lane4 := style, bytes := text }
  | .drw regionID flag => { word := 0xA, lane0 := regionID, lane1 := flag }
  | .clr regionID flag => { word := 0xB, lane0 := regionID, lane1 := flag }
  | .cls f => { word := 0xC, lane0 := f.command, bytes := f.pad.toList ++ f.payload }

/-- An instruction's bits laid out at the port: byte 0 is the operation word, bytes 1 to 8 are the lanes, and the list
lane is empty. Only the low `nbits` bits of `w` count; every bit above them is 0. -/
def portOpOfBits (nbits w : Nat) : PortOp :=
  let v := w % 2 ^ nbits
  let byteAt := fun k : Nat => BitVec.ofNat 8 (v / 256 ^ k)
  { word := byteAt 0, lane0 := byteAt 1, lane1 := byteAt 2, lane2 := byteAt 3, lane3 := byteAt 4, lane4 := byteAt 5,
    lane5 := byteAt 6, lane6 := byteAt 7, lane7 := byteAt 8, bytes := [] }

/-- The operation the decoder reads from an instruction whose bits are `w`; none where it refuses. -/
def decodeTableWord (nbits w : Nat) : Option Instr := (decode (portOpOfBits nbits w)).toOption

end Sys2Proof
end

