-- ==== Sys2Proof/Config.lean ====
section
/-! DEFINITION. The configuration record of one block (R8) and the free values of its OPEN parameters.

The configuration is fixed when the block is built and no operation reads it as data or writes it (R8, R29). The fixed
parameters of R8 (`SYNC_LEN`, `LEN_MIN`, `LEN_MAX`, `PAYLOAD_MAX`, `BUF_CAP`, `CODE_REGION_EXISTS`) are constants of
`Sys2Proof/Machine/Constants.lean`; the record below holds the OPEN ones. The reset state carries `Config.built`,
every field of which is an opaque constant: no value of an OPEN parameter is assumed (DESIGN CHOICE, notes 1 and 2,
safe). -/

namespace Sys2Proof

/-- The four bytes `P[0..3]` of the synchronization pattern (R8). -/
abbrev SyncPattern := Vector Byte 4

/-- Which byte of `xPos` is sent first (R8, R70). -/
inductive XByteOrder where
  /-- bits 15 to 8 first -/
  | hiFirst
  /-- bits 7 to 0 first -/
  | loFirst
  deriving DecidableEq, Repr, Inhabited

/-- The six operands that `CHANGE_LAYOUT` is a function of (R121, R122). -/
structure ChangeArgs where
  regionID : Byte
  sub0 : Byte
  sub1 : Byte
  visible : Byte
  style : Byte
  text : List Byte
  deriving DecidableEq, Repr

/-- The OPEN parameters of R8, as plain data. -/
structure Config where
  /-- `SYNC_PATTERN` (R8, 92 D1). -/
  syncPattern : SyncPattern
  /-- `STAY_SYNCED` (R8, 92 D3): whether a completed frame leaves the block synchronized. -/
  staySynced : Bool
  /-- `ERR_CODE_OFFSET` (R8, R131): an index into the payload of an error frame. -/
  errCodeOffset : Nat
  /-- `CODE_INVALID_COMMAND` (R8, R64). -/
  codeInvalidCommand : Byte
  /-- `CODE_INVALID_ARGS` (R8, R64). -/
  codeInvalidArgs : Byte
  /-- `CRE_RES_A` (R8, R118). -/
  creResA : Byte
  /-- `CRE_RES_FLAG` (R8, R118). -/
  creResFlag : Byte
  /-- `CRE_RES_B` (R8, R118). -/
  creResB : Byte
  /-- `X_BYTE_ORDER` (R8, R70). -/
  xByteOrder : XByteOrder
  /-- The points at which this block's `CHANGE_LAYOUT` is known; everywhere else it is the free value
  `Config.openChangeLayout` (R8, R122; DESIGN CHOICE, note 3, safe). -/
  changeLayoutPoints : List (ChangeArgs × List Byte)
  /-- `RAW_MAX` (R8, 92 D9): a parameter of the hardware that no rule of the model enforces (R108, C11). -/
  rawMax : Nat
  deriving DecidableEq, Repr

/-- OPEN `SYNC_PATTERN`: no value is assumed (92 D1). -/
opaque Config.openSyncPattern : SyncPattern
/-- OPEN `STAY_SYNCED`: no value is assumed (92 D3). -/
opaque Config.openStaySynced : Bool
/-- OPEN `ERR_CODE_OFFSET`: no value is assumed (92 D17). -/
opaque Config.openErrCodeOffset : Nat
/-- OPEN `CODE_INVALID_COMMAND`: no value is assumed (92 D18). -/
opaque Config.openCodeInvalidCommand : Byte
/-- OPEN `CODE_INVALID_ARGS`: no value is assumed (92 D18). -/
opaque Config.openCodeInvalidArgs : Byte
/-- OPEN `CRE_RES_A`: no value is assumed (92 D20). -/
opaque Config.openCreResA : Byte
/-- OPEN `CRE_RES_FLAG`: no value is assumed (92 D20). -/
opaque Config.openCreResFlag : Byte
/-- OPEN `CRE_RES_B`: no value is assumed (92 D20). -/
opaque Config.openCreResB : Byte
/-- OPEN `X_BYTE_ORDER`: no value is assumed (92 D20). -/
opaque Config.openXByteOrder : XByteOrder
/-- OPEN `CHANGE_LAYOUT`: a total function of the six operands of which nothing is assumed (R122, 92 D22). -/
opaque Config.openChangeLayout : ChangeArgs → List Byte
/-- OPEN `RAW_MAX`: no value is assumed (92 D9). -/
opaque Config.openRawMax : Nat

/-- The configuration the block was built with: every OPEN parameter at its free value (R8, R153). -/
def Config.built : Config where
  syncPattern := Config.openSyncPattern
  staySynced := Config.openStaySynced
  errCodeOffset := Config.openErrCodeOffset
  codeInvalidCommand := Config.openCodeInvalidCommand
  codeInvalidArgs := Config.openCodeInvalidArgs
  creResA := Config.openCreResA
  creResFlag := Config.openCreResFlag
  creResB := Config.openCreResB
  xByteOrder := Config.openXByteOrder
  changeLayoutPoints := []
  rawMax := Config.openRawMax

end Sys2Proof
end

