-- ==== Sys2Proof/Machine/State.lean ====
section
/-! DEFINITION. The state of one block (R20 to R37), the events and results of a step (R31, R32, R129), the reset
state (R34, R152), and the reasons a step can stop. -/

namespace Sys2Proof.Machine

/-- The receive-side control state, each phase carrying the fields that exist in it (R21, R25). -/
inductive Phase where
  /-- not synchronized; `mi` pattern bytes matched so far (R22) -/
  | hunt (mi : Fin 4)
  /-- synchronized: the next byte is the length byte -/
  | len
  /-- synchronized: accumulating the body and checksum of a frame with length byte `len` (R23) into `acc` (R24) -/
  | body (len : Byte) (acc : List Byte)
  deriving DecidableEq, Repr

/-- The block's three error conditions (R134). -/
inductive ErrCode where
  | badLength
  | badChecksum
  | txTooLong
  deriving DecidableEq, Repr

/-- Receive-side events (R31). -/
inductive RxEvent where
  /-- one valid inbound frame, carried by value (R92, R155) -/
  | frameOut (f : Frame)
  /-- the length byte was 0x00 or 0xFF (R90) -/
  | resyncBadLength (lenByte : Byte)
  /-- the received checksum differs from the computed one (R93) -/
  | resyncBadChecksum (len computed received : Byte)
  deriving DecidableEq, Repr

/-- Transmit-side results (R32). -/
inductive TxResult where
  /-- the bytes put on the transmit output, in order -/
  | sent (bytes : List Byte)
  /-- nothing sent -/
  | reject (code : ErrCode)
  /-- the operation transmits nothing (`RXB`, `RST`, `CLS`) -/
  | nothing
  deriving DecidableEq, Repr

/-- The name of a remote error code (R64, R129). -/
inductive ErrName where
  | invalidCommand
  | regionExists
  | invalidArgs
  | unclassified (c : Byte)
  deriving DecidableEq, Repr

/-- The outcome of classifying a reply frame (R129). -/
inductive ReplyOutcome where
  | ok
  | remoteError (e : ErrName)
  | errCodeAbsent
  | notAck
  deriving DecidableEq, Repr

/-- The block, its port and its outputs. The block's own state is `phase` (R25). `cfg` is the configuration record, an
input of every rule (R8; DESIGN CHOICE, note 1); `port` is the stream of operations presented and not yet performed
(R30; DESIGN CHOICE, note 5); `ev`, `tx` and `outcome` are the results of the operation performed last (R14);
`rxStream` and `txStream` are all that the receive-event and the transmit output have carried (R13, R46; DESIGN
CHOICE, note 6). No rule reads `ev`, `tx`, `outcome`, `rxStream` or `txStream` (R37). -/
structure State where
  /-- the configuration, fixed for the life of the block (R8, R29) -/
  cfg : Config
  /-- the operations presented at the port, the next one first (R30, R67) -/
  port : List PortOp
  /-- the receive-side control state with its fields (R21 to R25) -/
  phase : Phase
  /-- the receive events of the operation performed last, in order (R14, R31) -/
  ev : List RxEvent
  /-- the transmit result of the operation performed last (R14, R32) -/
  tx : TxResult
  /-- the outcome `CLS` returned, when the operation performed last was `CLS` (R129, R130) -/
  outcome : Option ReplyOutcome
  /-- every receive event so far, in order (R13, R46) -/
  rxStream : List RxEvent
  /-- every byte sent so far, in order (R13, R46, R114) -/
  txStream : List Byte
  deriving DecidableEq, Repr

/-- The block right after power-up (R34, R152; the outputs' empty values DEDUCED, note 6): hunting with nothing
matched, nothing presented, nothing emitted, nothing sent. The configuration is the one it was built with, free in
every OPEN parameter (DESIGN CHOICE, notes 1 and 2, safe). -/
def State.reset : State where
  cfg := Config.built
  port := []
  phase := .hunt 0
  ev := []
  tx := .nothing
  outcome := none
  rxStream := []
  txStream := []

/-- The ways the machine can stop with a fault: there is none. No condition of the block is a halt or a stuck state,
every failure is an event or a rejection result, and the step that finds it completes (R19, R135). Nothing raises a
fault, which is safe: the type is empty (DEDUCED, note 12). -/
inductive Fault where
  deriving DecidableEq, Repr

/-- The reasons for which a presented operation is given no meaning. -/
inductive Refusal where
  /-- `REFUSED(reserved_op)`, raised by the step on a reserved op-select, 0x4 to 0x7 or 0xD to 0xF (R73). Safe: a
  hardware block may do anything with it, so no claim covers it. -/
  | reservedOp (select : Nat)
  /-- Raised by the step on a `CLS` presented with a body longer than 254 bytes, which no valid frame has (R66); a
  model admits only valid frames (R69). Safe: the spec's port can present no such operand. -/
  | notAFrame (bodyLength : Nat)
  /-- An operation that has no meaning yet; raised by nothing, every operation has its meaning. Safe. -/
  | notModelled (mnemonic : String)
  deriving DecidableEq, Repr

end Sys2Proof.Machine
end

