-- ==== Sys2Proof/Machine/Ops.lean ====
section
/-! DEFINITION. The named operations on the state: the end of a receive step, the resynchronization that takes the
place of an exception entry (R142), the end of a transmit step, of a classification and of a reset, and taking the
next operation from the port. There is no return from an exception (R143). -/

namespace Sys2Proof.Machine

/-- The numeric code of an error condition (R134). -/
def ErrCode.number : ErrCode → Nat
  | .badLength => 1
  | .badChecksum => 2
  | .txTooLong => 3

/-- The error condition an event reports; a frame event reports none (R31, R134). -/
def RxEvent.errCode : RxEvent → Option ErrCode
  | .frameOut _ => none
  | .resyncBadLength _ => some .badLength
  | .resyncBadChecksum _ _ _ => some .badChecksum

/-- The bytes a transmit result put on the transmit output (R32). -/
def TxResult.bytes : TxResult → List Byte
  | .sent bytes => bytes
  | .reject _ => []
  | .nothing => []

/-- The end of a receive step: the next phase, the events it emits, and `tx := TX_NONE` (R13, R77). -/
def State.receiveTo (s : State) (phase : Phase) (events : List RxEvent) : State :=
  { s with phase := phase, ev := events, tx := .nothing, outcome := none, rxStream := s.rxStream ++ events }

/-- `emit FRAME_OUT(f)` as the step's one event, with the phase the completion rule gives (R13, R92). -/
def State.emitFrame (s : State) (phase : Phase) (f : Frame) : State := s.receiveTo phase [.frameOut f]

/-- The resynchronization that follows a framing error, the nearest thing to an exception entry: `raise E(info)` is the
step's one event, the partial frame is discarded, nothing is saved, and the phase becomes `HUNT 0` (R136, R142). -/
def State.resync (s : State) (e : RxEvent) : State := s.receiveTo (.hunt 0) [e]

/-- The end of a transmit step: its result, the bytes appended to the transmit output, no receive event, the receive
state untouched (R13, R104). -/
def State.transmit (s : State) (r : TxResult) : State :=
  { s with ev := [], tx := r, outcome := none, txStream := s.txStream ++ r.bytes }

/-- The end of a classification: it returns an outcome, sends nothing and emits no event (R130). -/
def State.classified (s : State) (o : ReplyOutcome) : State := { s with ev := [], tx := .nothing, outcome := some o }

/-- The end of a reset: `HUNT 0`, no event, nothing sent; bytes already sent stay sent (R151). -/
def State.restart (s : State) : State := s.receiveTo (.hunt 0) []

/-- The next operation at the port and the state in which it has been taken; none when nothing is presented (R46). -/
def State.takeOp (s : State) : Option (PortOp × State) :=
  match s.port with
  | [] => none
  | p :: rest => some (p, { s with port := rest })

/-- The refusal of a presented operation that the decoder gives no meaning (R69, R73). -/
def refusalOf : DecodeError → Refusal
  | .reservedOp select => .reservedOp select
  | .notAFrame bodyLength => .notAFrame bodyLength

end Sys2Proof.Machine
end

