-- ==== Sys2Proof/Machine/Control.lean ====
section
/-! DEFINITION. `RST`: reset of the receive state (R151). -/

namespace Sys2Proof.Machine

/-- `RST`: a frame in progress is discarded with no event; configuration and transmit output are untouched (R151). -/
def execRst (s : State) : Host.Outcome State Fault Refusal := .next s.restart

end Sys2Proof.Machine
end

