-- ==== Sys2Proof/Machine/Operands.lean ====
section
/-! DEFINITION. Operand assembly: the split of `xPos` (R70) and the payloads of the region commands (R117, R121, R125). -/

namespace Sys2Proof.Machine

/-- `xBytes(xPos)`: the two bytes of `xPos` in the configured order (R70). -/
def xBytes (cfg : Config) (xPos : Half) : List Byte :=
  match cfg.xByteOrder with
  | .hiFirst => [halfHi xPos, halfLo xPos]
  | .loFirst => [halfLo xPos, halfHi xPos]

/-- `CRE_PAYLOAD`: eleven fixed bytes, then the text (R117, R118). -/
def createPayload (cfg : Config) (regionID sub0 sub1 : Byte) (xPos : Half) (yPos width fontStyle : Byte)
    (text : List Byte) : List Byte :=
  [regionID, cfg.creResA, sub0, sub1, cfg.creResFlag, fontStyle, width, cfg.creResB]
    ++ xBytes cfg xPos ++ [yPos] ++ text

/-- `CHANGE_LAYOUT`: a total function of the six operands alone (R122). It is the listed value at a listed point and
the free value everywhere else, so that every function can stand here at any finite set of points (DESIGN CHOICE, note
3). -/
def changeLayout (cfg : Config) (args : ChangeArgs) : List Byte :=
  (cfg.changeLayoutPoints.lookup args).getD (Config.openChangeLayout args)

/-- The payload of the draw-region and clear-region commands (R125). -/
def regionFlagPayload (regionID flag : Byte) : List Byte := [regionID, flag]

end Sys2Proof.Machine
end

