-- ==== Sys2Proof/Machine/Transmit.lean ====
section
/-! DEFINITION. The encode path of the frame codec: `TXF` and `TXR` (R104 to R114). -/

namespace Sys2Proof.Machine

/-- The result of sending one frame: the encoded frame without a marker (R105, R107), or a rejection when the payload
does not fit (R106). -/
def frameResult (cmd : Byte) (payload : List Byte) : TxResult :=
  if payloadMax < payload.length then .reject .txTooLong else .sent (encodeFrame cmd payload)

/-- `TXF cmd, payload` (R105). -/
def execTxf (cmd : Byte) (payload : List Byte) (s : State) : Host.Outcome State Fault Refusal :=
  .next (s.transmit (frameResult cmd payload))

/-- `TXR bytes`: the bytes unchanged, of any finite length (R108, C11; UNVERIFIED beyond the hardware's `RAW_MAX`,
note 11, unsafe there). -/
def execTxr (bytes : List Byte) (s : State) : Host.Outcome State Fault Refusal :=
  .next (s.transmit (.sent bytes))

end Sys2Proof.Machine
end

