-- ==== Sys2Proof/Machine/Helpers.lean ====
section
/-! DEFINITION. The command helpers: the builders `CRE`, `CHG`, `DRW`, `CLR` and the reply classifier `CLS` (R115 to
R133). Each builder behaves as `TXF` on the payload it computes. -/

namespace Sys2Proof.Machine

/-- `CRE`: the create-region frame, rejected when the text does not fit (R116, R117). -/
def execCre (regionID sub0 sub1 : Byte) (xPos : Half) (yPos width fontStyle : Byte) (text : List Byte) (s : State) :
    Host.Outcome State Fault Refusal :=
  .next (s.transmit (if createTextMax < text.length then .reject .txTooLong
    else frameResult cmdCreateRegion (createPayload s.cfg regionID sub0 sub1 xPos yPos width fontStyle text)))

/-- `CHG`: the change-region frame, rejected when the configured layout does not fit (R116, R121). -/
def execChg (regionID sub0 sub1 visible style : Byte) (text : List Byte) (s : State) :
    Host.Outcome State Fault Refusal :=
  .next (s.transmit (frameResult cmdChangeRegion (changeLayout s.cfg ⟨regionID, sub0, sub1, visible, style, text⟩)))

/-- `DRW regionID, flag`: the draw-region frame (R124). -/
def execDrw (regionID flag : Byte) (s : State) : Host.Outcome State Fault Refusal :=
  .next (s.transmit (frameResult cmdDrawRegion (regionFlagPayload regionID flag)))

/-- `CLR regionID, flag`: the clear-region frame (R126). -/
def execClr (regionID flag : Byte) (s : State) : Host.Outcome State Fault Refusal :=
  .next (s.transmit (frameResult cmdClearRegion (regionFlagPayload regionID flag)))

/-- `ERRNAME(c)`: the first matching name, in the order of R130. -/
def errName (cfg : Config) (c : Byte) : ErrName :=
  if c = codeRegionExists then .regionExists
  else if c = cfg.codeInvalidCommand then .invalidCommand
  else if c = cfg.codeInvalidArgs then .invalidArgs
  else .unclassified c

/-- The outcome of an error frame: the name of the code at the configured offset, or that the frame has no byte there
(R130, R131). -/
def errorOutcome (cfg : Config) (payload : List Byte) : ReplyOutcome :=
  match payload[cfg.errCodeOffset]? with
  | some c => .remoteError (errName cfg c)
  | none => .errCodeAbsent

/-- `CLS(f)` as a function of the frame and the configuration (R130, R133). -/
def classify (cfg : Config) (f : Frame) : ReplyOutcome :=
  if f.command = cmdAck then .ok
  else if f.command = cmdError then errorOutcome cfg f.payload
  else .notAck

/-- `CLS f` (R130); where the frame came from is not checked (DESIGN CHOICE, note 9, safe). -/
def execCls (f : Frame) (s : State) : Host.Outcome State Fault Refusal := .next (s.classified (classify s.cfg f))

end Sys2Proof.Machine
end

