-- ==== Sys2Proof/Machine/Flags.lean ====
section
/-! DEFINITION. The block has no condition codes and no status flags (R28). What it has in their place: the one
flag-like fact "synchronized" (R21, R28) and the class of a length byte (R53). -/

namespace Sys2Proof.Machine

/-- "Synchronized": the phase is not `HUNT` (R21, R28). -/
def Phase.synchronized : Phase → Bool
  | .hunt _ => false
  | .len => true
  | .body _ _ => true

/-- The length byte is one of the valid class 0x01 to 0xFE (R53). -/
def lengthAccepted (b : Byte) : Bool := decide (lenMin ≤ b.toNat ∧ b.toNat ≤ lenMax)

end Sys2Proof.Machine
end

