-- ==== Sys2Proof/Machine/Receive.lean ====
section
/-! DEFINITION. `RXB`: the byte synchronizer (R77 to R84) and the decode path of the frame codec (R88 to R98). -/

namespace Sys2Proof.Machine

/-- `HUNT_STEP(mi, b)` (R81; the re-test is 92 D2, UNVERIFIED, note 10, unsafe): advance, full match, or reset of the
match index with one re-test of the same byte against the first pattern byte. -/
def huntStep (mi : Fin 4) (b : Byte) (s : State) : State :=
  if b = s.cfg.syncPattern[mi] then
    if mi = 3 then s.receiveTo .len [] else s.receiveTo (.hunt (mi + 1)) []
  else if b = s.cfg.syncPattern[0] then s.receiveTo (.hunt 1) []
  else s.receiveTo (.hunt 0) []

/-- `LEN_STEP(b)` (R88): a valid length starts an empty assembly buffer, an invalid one is a framing error. -/
def lenStep (b : Byte) (s : State) : State :=
  if lengthAccepted b then s.receiveTo (.body b []) [] else s.resync (.resyncBadLength b)

/-- The completion of a frame (R92, R93): the frame is emitted when the checksum matches, else it is discarded. -/
def completeFrame (len : Byte) (body : List Byte) (chk : Byte) (s : State) : State :=
  if csum len body = chk then
    s.emitFrame (if s.cfg.staySynced then .len else .hunt 0) (mkFrame len body chk)
  else s.resync (.resyncBadChecksum len (csum len body) chk)

/-- `BODY_STEP(len, acc, b)` (R91): `b` is appended to the assembly buffer, and byte `len` of the buffer is the
checksum. -/
def bodyStep (len : Byte) (acc : List Byte) (b : Byte) (s : State) : State :=
  let acc' := acc ++ [b]
  if h : acc'.length ≤ len.toNat then s.receiveTo (.body len acc') []
  else completeFrame len (acc'.take len.toNat) (acc'[len.toNat]'(Nat.lt_of_not_le h)) s

/-- `RXB b`: the phase decides what the byte is (R77). -/
def execRxb (b : Byte) (s : State) : Host.Outcome State Fault Refusal :=
  .next (match s.phase with
    | .hunt mi => huntStep mi b s
    | .len => lenStep b s
    | .body len acc => bodyStep len acc b s)

end Sys2Proof.Machine
end

