-- ==== Sys2Proof/Machine/Dispatch.lean ====
section
/-! DEFINITION. The meaning of every operation, one arm per constructor of `Instr`. -/

namespace Sys2Proof.Machine

def exec (i : Instr) (s : State) : Host.Outcome State Fault Refusal :=
  match i with
  | .rxb b => Sys2Proof.Machine.execRxb b s
  | .txf cmd payload => Sys2Proof.Machine.execTxf cmd payload s
  | .txr bytes => Sys2Proof.Machine.execTxr bytes s
  | .rst => Sys2Proof.Machine.execRst s
  | .cre regionID sub0 sub1 xPos yPos width fontStyle text => Sys2Proof.Machine.execCre regionID sub0 sub1 xPos yPos width fontStyle text s
  | .chg regionID sub0 sub1 visible style text => Sys2Proof.Machine.execChg regionID sub0 sub1 visible style text s
  | .drw regionID flag => Sys2Proof.Machine.execDrw regionID flag s
  | .clr regionID flag => Sys2Proof.Machine.execClr regionID flag s
  | .cls f => Sys2Proof.Machine.execCls f s

end Sys2Proof.Machine
end

