-- ==== Sys2Proof/Machine/Step.lean ====
section
/-! DEFINITION. One step: the next operation is taken from the port, decoded and performed, atomically (R14, R46). -/

namespace Sys2Proof.Machine

/-- One step. With no operation presented the block holds its state unchanged (R149, R166; DESIGN CHOICE, note 5). -/
def step (s : State) : Host.Outcome State Fault Refusal :=
  match s.takeOp with
  | none => .next s
  | some (p, s') =>
    match decode p with
    | .ok i => exec i s'
    | .error e => .refused (refusalOf e)

/-- The state with the operation of the given bits presented as the next one at the port. -/
def State.withFetchWord (s : State) (nbits w : Nat) : State := { s with port := portOpOfBits nbits w :: s.port }

end Sys2Proof.Machine
end

