-- ==== Sys2Proof/Machine/Run.lean ====
section
/-! DEFINITION. A finite sequence of operations performed in order (R46, R166), the pseudo-operations that expand into
such sequences (R72), and the lines of a test program (R71). -/

namespace Sys2Proof.Machine

/-- The operations of a list performed one after another, stopping at the first that has no next state (R46). -/
def performAll : List Instr → State → Host.Outcome State Fault Refusal
  | [], s => .next s
  | i :: rest, s =>
    match exec i s with
    | .next t => performAll rest t
    | .fault r => .fault r
    | .refused r => .refused r

/-- `rx b0, b1, …`: one `RXB` for each byte (R72). -/
def rx (bytes : List Byte) : List Instr := bytes.map .rxb

/-- `rxsync`: one `RXB` for each pattern byte (R72). -/
def rxsync (cfg : Config) : List Instr := rx cfg.syncPattern.toList

/-- `rxframe cmd, [payload]`: `rxsync`, then the bytes `TXF cmd, payload` would send (R72). -/
def rxframe (cfg : Config) (cmd : Byte) (payload : List Byte) : List Instr :=
  rxsync cfg ++ rx (frameResult cmd payload).bytes

/-- A text operand written in quotes stands for the characters' ASCII codes (R71). -/
def textBytes (chars : List Char) : List Byte := chars.map fun c => lo8 c.toNat

/-- The lines of a test program, operations and pseudo-operations (R71, R72; DESIGN CHOICE, note 13, safe). -/
inductive AsmLine where
  /-- an operation written with all its operands; a frame operand is written as `clsEvent` -/
  | op (i : Instr)
  /-- `cls ev<k>`: the frame of the `k`-th event of the run, counted from 1 -/
  | clsEvent (k : Nat)
  | rx (bytes : List Byte)
  | rxsync
  | rxframe (cmd : Byte) (payload : List Byte)
  /-- `drw r`, the flag left to its default -/
  | drwDefault (regionID : Byte)
  /-- `clr r`, the flag left to its default -/
  | clrDefault (regionID : Byte)
  /-- `cre …` with no text operand -/
  | creNoText (regionID sub0 sub1 : Byte) (xPos : Half) (yPos width fontStyle : Byte)
  /-- `chg …` with no text operand -/
  | chgNoText (regionID sub0 sub1 visible style : Byte)
  deriving DecidableEq, Repr

/-- The operations a line stands for, given the configuration and the events of the run so far; none when `cls` names
an event that is not a frame event (R71, R72). -/
def AsmLine.expand (cfg : Config) (events : List RxEvent) : AsmLine → Option (List Instr)
  | .op i => some [i]
  | .clsEvent k =>
    match events[k - 1]? with
    | some (.frameOut f) => if k = 0 then none else some [.cls f]
    | some (.resyncBadLength _) => none
    | some (.resyncBadChecksum _ _ _) => none
    | none => none
  | .rx bytes => some (Machine.rx bytes)
  | .rxsync => some (Machine.rxsync cfg)
  | .rxframe cmd payload => some (Machine.rxframe cfg cmd payload)
  | .drwDefault regionID => some [.drw regionID 1]
  | .clrDefault regionID => some [.clr regionID 1]
  | .creNoText regionID sub0 sub1 xPos yPos width fontStyle =>
    some [.cre regionID sub0 sub1 xPos yPos width fontStyle []]
  | .chgNoText regionID sub0 sub1 visible style => some [.chg regionID sub0 sub1 visible style []]

/-- The lexical pieces of a test program's line (R71). How a number is spelled, 0xNN or decimal, is free. -/
inductive AsmToken where
  /-- the mnemonic of an operation or pseudo-operation, in the letters of R71 and R72 -/
  | word (name : String)
  | number (n : Nat)
  | comma
  | openBracket
  | closeBracket
  /-- `ev<k>` -/
  | event (k : Nat)
  deriving DecidableEq, Repr

/-- Operands written in order with a comma between two (R71). -/
def asmOperands (operands : List (List AsmToken)) : List AsmToken := (operands.intersperse [.comma]).flatten

/-- A byte operand (R71). -/
def asmByte (b : Byte) : List AsmToken := [.number b.toNat]

/-- A list operand, in brackets (R71). -/
def asmList (bytes : List Byte) : List AsmToken := .openBracket :: (asmOperands (bytes.map asmByte) ++ [.closeBracket])

/-- How a line is written (R71, R72); a classify operation is written with the event it names, so that the operation
on a bare frame record has no line. -/
def AsmLine.tokens : AsmLine → Option (List AsmToken)
  | .op (.rxb b) => some (.word "rxb" :: asmByte b)
  | .op (.txf cmd payload) => some (.word "txf" :: asmOperands [asmByte cmd, asmList payload])
  | .op (.txr bytes) => some (.word "txr" :: asmList bytes)
  | .op .rst => some [.word "rst"]
  | .op (.cre a b c x y w f text) =>
    some (.word "cre" :: asmOperands
      [asmByte a, asmByte b, asmByte c, [.number x.toNat], asmByte y, asmByte w, asmByte f, asmList text])
  | .op (.chg a b c v st text) =>
    some (.word "chg" :: asmOperands [asmByte a, asmByte b, asmByte c, asmByte v, asmByte st, asmList text])
  | .op (.drw r flag) => some (.word "drw" :: asmOperands [asmByte r, asmByte flag])
  | .op (.clr r flag) => some (.word "clr" :: asmOperands [asmByte r, asmByte flag])
  | .op (.cls _) => none
  | .clsEvent k => some [.word "cls", .event k]
  | .rx bytes => some (.word "rx" :: asmOperands (bytes.map asmByte))
  | .rxsync => some [.word "rxsync"]
  | .rxframe cmd payload => some (.word "rxframe" :: asmOperands [asmByte cmd, asmList payload])
  | .drwDefault r => some (.word "drw" :: asmByte r)
  | .clrDefault r => some (.word "clr" :: asmByte r)
  | .creNoText a b c x y w f =>
    some (.word "cre" :: asmOperands [asmByte a, asmByte b, asmByte c, [.number x.toNat], asmByte y, asmByte w, asmByte f])
  | .chgNoText a b c v st =>
    some (.word "chg" :: asmOperands [asmByte a, asmByte b, asmByte c, asmByte v, asmByte st])

end Sys2Proof.Machine
end

