-- ==== Sys2Proof/WellFormed.lean ====
section
/-! DEFINITION. The named checks of the spec: which operands an operation admits (R69), the pattern check `WF_SYNC`
(R9) and the error-code check `WF_CODES` (R132). -/

namespace Sys2Proof

/-- An operation is well-formed when a `CLS` operand is a valid frame; every other operand is taken as given (R69,
R139). -/
def Instr.wellFormed : Instr → Bool
  | .rxb _ => true
  | .txf _ _ => true
  | .txr _ => true
  | .rst => true
  | .cre _ _ _ _ _ _ _ _ => true
  | .chg _ _ _ _ _ _ => true
  | .drw _ _ => true
  | .clr _ _ => true
  | .cls f => decide f.Valid

/-- `WF_SYNC(P)`: the first pattern byte differs from the second and the third (R9). -/
abbrev WfSync (P : SyncPattern) : Prop := P[0] ≠ P[1] ∧ P[0] ≠ P[2]

/-- `WF_CODES`: the three named error codes are pairwise distinct (R132). -/
abbrev Config.WfCodes (c : Config) : Prop :=
  Machine.codeRegionExists ≠ c.codeInvalidCommand ∧ Machine.codeRegionExists ≠ c.codeInvalidArgs
    ∧ c.codeInvalidCommand ≠ c.codeInvalidArgs

end Sys2Proof
end

