-- ==== Sys2Proof/Safety.lean ====
section
/-! DEFINITION. What claims speak of: the state invariant `INV` (R26), the validity of emitted frames (R66), and the
terms of the re-alignment guarantee (R85). -/

namespace Sys2Proof.Machine

/-- `INV(s)` on the phase (R26). -/
abbrev Phase.Inv : Phase → Prop
  | .hunt mi => mi.val ≤ 3
  | .len => True
  | .body n acc => (1 ≤ n.toNat ∧ n.toNat ≤ 254) ∧ acc.length ≤ n.toNat

/-- `INV(s)` (R26). -/
abbrev State.Inv (s : State) : Prop := s.phase.Inv

/-- An event that carries a frame carries a valid one (R66). -/
abbrev RxEvent.Valid : RxEvent → Prop
  | .frameOut f => f.Valid
  | .resyncBadLength _ => True
  | .resyncBadChecksum _ _ _ => True

/-- Every event emitted so far is valid (R66). -/
def State.EventsValid (s : State) : Prop := (∀ e ∈ s.ev, e.Valid) ∧ ∀ e ∈ s.rxStream, e.Valid

/-- The pattern occurs nowhere in `w`: no prefix of `w` ends with the four pattern bytes (R85). -/
abbrev PatternFree (P : SyncPattern) (w : List Byte) : Prop := ∀ j, j ≤ w.length → ¬ P.toList <:+ w.take j

/-- `k` is the length of the longest suffix of `w` that is a proper prefix of the pattern (R85). -/
abbrev LongestMatch (P : SyncPattern) (w : List Byte) (k : Nat) : Prop :=
  (k ≤ 3 ∧ P.toList.take k <:+ w) ∧ ∀ m, m ≤ 3 → P.toList.take m <:+ w → m ≤ k

/-- The operation transmits or builds or classifies; it is neither `RXB` nor `RST` (R47, R104, R115). -/
def onTransmitSide : Instr → Bool
  | .rxb _ => false
  | .txf _ _ => true
  | .txr _ => true
  | .rst => false
  | .cre _ _ _ _ _ _ _ _ => true
  | .chg _ _ _ _ _ _ => true
  | .drw _ _ => true
  | .clr _ _ => true
  | .cls _ => true

end Sys2Proof.Machine
end

