-- ==== Sys2Proof/Certificates/Slice0/Obligations.lean ====
section
/-! DEFINITION. The statements for the provers. Each holds for every state, so for every configuration: no value of an
OPEN parameter is assumed. A result is written as the whole next state, so that everything it does not name is
unchanged. The outputs of an operation stand in the state's fields `ev`, `tx`, `outcome`, `rxStream` and `txStream`
(notes 1, 5 and 6: how the model carries the spec's configuration, port and outputs). -/

open Sys2Proof Sys2Proof.Machine

/-! ### Receiving a byte -/

/-- R78 to R81: `RXB` while hunting. The next phase follows the pattern byte expected at the match index, else the
re-test of the same byte against the first pattern byte; no event, nothing sent, nothing buffered. -/
def Obligations.HuntingByteFollowsThePattern : Prop :=
  ∀ (s : State) (mi : Fin 4) (b : Byte), s.phase = .hunt mi →
    opSelect (encode (.rxb b)).word = 0x0 ∧
    exec (.rxb b) s = .next
      { s with
        phase :=
          if b = s.cfg.syncPattern[mi] then (if mi = 3 then .len else .hunt (mi + 1))
          else if b = s.cfg.syncPattern[0] then .hunt 1
          else .hunt 0
        ev := []
        tx := .nothing
        outcome := none }

/-- R88 and R90: `RXB` when the length byte is due. A byte 1 to 254 starts an empty assembly buffer; 0x00 and 0xFF are
framing errors, reported with the byte, and return the block to `HUNT 0`. -/
def Obligations.LengthByteStartsBodyOrResyncs : Prop :=
  ∀ (s : State) (b : Byte), s.phase = .len →
    opSelect (encode (.rxb b)).word = 0x0 ∧
    (0x01 ≤ b.toNat ∧ b.toNat ≤ 0xFE →
      exec (.rxb b) s = .next { s with phase := .body b [], ev := [], tx := .nothing, outcome := none }) ∧
    (b = 0x00 ∨ b = 0xFF →
      exec (.rxb b) s = .next
        { s with
          phase := .hunt 0
          ev := [.resyncBadLength b]
          tx := .nothing
          outcome := none
          rxStream := s.rxStream ++ [.resyncBadLength b] })

/-- R91 to R93: `RXB` in a frame. While the buffer holds fewer than `len` bytes the byte is appended; the byte after
`len` body bytes is the checksum, and the frame is emitted when it matches and discarded with a reported error when it
does not. -/
def Obligations.BodyByteAccumulatesThenCompletes : Prop :=
  ∀ (s : State) (len : Byte) (acc : List Byte) (b : Byte), s.phase = .body len acc →
    opSelect (encode (.rxb b)).word = 0x0 ∧
    (acc.length < len.toNat →
      exec (.rxb b) s = .next
        { s with phase := .body len (acc ++ [b]), ev := [], tx := .nothing, outcome := none }) ∧
    (acc.length = len.toNat → csum len acc = b →
      exec (.rxb b) s = .next
        { s with
          phase := if s.cfg.staySynced then .len else .hunt 0
          ev := [.frameOut (mkFrame len acc b)]
          tx := .nothing
          outcome := none
          rxStream := s.rxStream ++ [.frameOut (mkFrame len acc b)] }) ∧
    (acc.length = len.toNat → csum len acc ≠ b →
      exec (.rxb b) s = .next
        { s with
          phase := .hunt 0
          ev := [.resyncBadChecksum len (csum len acc) b]
          tx := .nothing
          outcome := none
          rxStream := s.rxStream ++ [.resyncBadChecksum len (csum len acc) b] })

/-- R95: the checksum is the low byte of the sum of the length byte and the body bytes, and it is the same function the
encoder uses for the last byte it sends. -/
def Obligations.ChecksumIsTheLowByteOfTheSum : Prop :=
  (∀ (len : Byte) (body : List Byte),
    (csum len body).toNat = (len.toNat + (body.map BitVec.toNat).sum) % 256) ∧
  ∀ (cmd : Byte) (payload : List Byte), (encodeFrame cmd payload).getLast? =
    some (csum (lo8 (2 + payload.length)) ([cmd, 0x00] ++ payload))

/-- Frame construction as R94 gives it, with the spec's own inference there ("The result satisfies VALID whenever chk =
CSUM(len, body)"): the command is body byte 0, the pad body byte 1 when there is one, the payload the rest. -/
def Obligations.FrameRecordIsSplitFromTheBody : Prop :=
  ∀ (len : Byte) (body : List Byte) (chk : Byte), 1 ≤ len.toNat → len.toNat ≤ 254 → body.length = len.toNat →
    (mkFrame len body chk).length = len ∧ body[0]? = some (mkFrame len body chk).command ∧
    (mkFrame len body chk).pad = (if 2 ≤ len.toNat then body[1]? else none) ∧
    (mkFrame len body chk).payload = body.drop 2 ∧ (mkFrame len body chk).checksum = chk ∧
    (chk = csum len body → (mkFrame len body chk).Valid)

/-- R103: the source's worked examples, from the length byte on: the acknowledgment and the error frame are emitted as
the one event; the length bytes 0x00 and 0xFF resync, and 0x01 and 0xFE are accepted. -/
def Obligations.ReferenceFramesAreEmitted : Prop :=
  ∀ s : State, s.phase = .len →
    (∃ t, performAll (rx [0x02, 0xFF, 0x00, 0x01]) s = .next t ∧
      t.rxStream = s.rxStream ++ [.frameOut ⟨0x02, 0xFF, some 0x00, [], 0x01⟩]) ∧
    (∃ t, performAll (rx [0x03, 0xFE, 0x00, 0x33, 0x34]) s = .next t ∧
      t.rxStream = s.rxStream ++ [.frameOut ⟨0x03, 0xFE, some 0x00, [0x33], 0x34⟩]) ∧
    (∀ b : Byte, b = 0x00 ∨ b = 0xFF → ∃ t, exec (.rxb b) s = .next t ∧ t.ev = [.resyncBadLength b]) ∧
    (∀ b : Byte, b = 0x01 ∨ b = 0xFE → ∃ t, exec (.rxb b) s = .next t ∧ t.ev = [] ∧ t.phase = .body b [])

/-- A minimal frame, length 0x01 (R57, R97, the spec's choice 92 D6): the body is the command byte alone, and the frame
is emitted with no pad and no payload when its checksum is the low byte of 0x01 plus the command. -/
def Obligations.MinimalFrameHasNoPadAndNoPayload : Prop :=
  ∀ (s : State) (command : Byte), s.phase = .len →
    ∃ t, performAll (rx [0x01, command, lo8 (0x01 + command.toNat)]) s = .next t ∧
      t.rxStream = s.rxStream ++ [.frameOut ⟨0x01, command, none, [], lo8 (0x01 + command.toNat)⟩]

/-- The spec's own inference R99: every accepted length byte is followed, after exactly `len + 1` more bytes and not
before, by exactly one event. -/
def Obligations.EachFrameAttemptHasOneOutcome : Prop :=
  ∀ (s : State) (len : Byte) (body : List Byte) (chk : Byte), s.phase = .len →
    1 ≤ len.toNat → len.toNat ≤ 254 → body.length = len.toNat →
    (∀ k, k ≤ body.length → ∃ t, performAll (rx (len :: body.take k)) s = .next t ∧
      t.phase = .body len (body.take k) ∧ t.rxStream = s.rxStream ∧ t.txStream = s.txStream) ∧
    ∃ t, performAll (rx (len :: (body ++ [chk]))) s = .next t ∧
      t.rxStream = s.rxStream ++
        [if csum len body = chk then .frameOut (mkFrame len body chk)
          else .resyncBadChecksum len (csum len body) chk] ∧
      t.phase = (if csum len body = chk ∧ s.cfg.staySynced = true then .len else .hunt 0) ∧
      t.txStream = s.txStream

/-- Every valid frame is decoded from its own wire image, whatever its command, pad and payload, and nothing else is
emitted (it rests on R66, R91 and R94; R96 and R98 say that pad and command are not checked). -/
def Obligations.ValidFrameIsDecodedFromItsWireImage : Prop :=
  ∀ (s : State) (f : Frame), s.phase = .len → f.Valid →
    ∃ t, performAll (rx f.wire) s = .next t ∧ t.rxStream = s.rxStream ++ [.frameOut f] ∧
      t.phase = (if s.cfg.staySynced then .len else .hunt 0) ∧ t.txStream = s.txStream

/-- The spec's own inference R56: a valid frame occupies two bytes more than its length byte says. -/
def Obligations.WireImageIsTwoBytesLongerThanItsLength : Prop :=
  ∀ f : Frame, f.Valid → f.wire.length = f.length.toNat + 2

/-- The spec's own inference R102, its first sentence: with `STAY_SYNCED` frames back to back behind one marker are
all decoded, in order. -/
def Obligations.BackToBackFramesAreAllDecodedWhenStaySynced : Prop :=
  ∀ (s : State) (frames : List Frame), s.phase = .len → s.cfg.staySynced = true → (∀ f ∈ frames, f.Valid) →
    ∃ t, performAll (rx (frames.flatMap Frame.wire)) s = .next t ∧
      t.rxStream = s.rxStream ++ frames.map .frameOut ∧ t.phase = .len

/-- The spec's own inference R100: after a bad checksum with an intact length byte, exactly one resync is reported and
the next marker and frame are decoded. -/
def Obligations.BadChecksumDoesNotCorruptTheNextFrame : Prop :=
  ∀ (s : State) (len : Byte) (body : List Byte) (chk cmd : Byte) (payload : List Byte), s.phase = .len →
    1 ≤ len.toNat → len.toNat ≤ 254 → body.length = len.toNat → csum len body ≠ chk → payload.length ≤ 252 →
    ∃ t, performAll (rx (len :: (body ++ [chk])) ++ rxsync s.cfg ++ rx (encodeFrame cmd payload)) s = .next t ∧
      t.rxStream = s.rxStream ++
        [.resyncBadChecksum len (csum len body) chk,
          .frameOut ⟨lo8 (2 + payload.length), cmd, some 0x00, payload,
            csum (lo8 (2 + payload.length)) (cmd :: 0x00 :: payload)⟩]

/-- The spec's own inference R159: a change of the body that keeps the sum modulo 256 passes the checksum, so that both
streams emit a frame. -/
def Obligations.SumPreservingCorruptionPasses : Prop :=
  ∀ (s : State) (len : Byte) (body body' : List Byte), s.phase = .len → 1 ≤ len.toNat → len.toNat ≤ 254 →
    body.length = len.toNat → body'.length = len.toNat → byteSum body % 256 = byteSum body' % 256 →
    ∃ t, performAll (rx (len :: (body' ++ [csum len body]))) s = .next t ∧
      t.rxStream = s.rxStream ++ [.frameOut (mkFrame len body' (csum len body))]

/-! ### The synchronizer over a byte stream -/

/-- The spec's own inference R85, part 1: under `WF_SYNC`, hunting through bytes that do not hold the pattern keeps the
match index at the length of the longest suffix received that is a proper prefix of the pattern. -/
def Obligations.MatchIndexIsTheLongestPatternPrefix : Prop :=
  ∀ (s : State) (w : List Byte), s.phase = .hunt 0 → WfSync s.cfg.syncPattern → PatternFree s.cfg.syncPattern w →
    ∃ (t : State) (k : Fin 4), performAll (rx w) s = .next t ∧ t.phase = .hunt k ∧
      LongestMatch s.cfg.syncPattern w k.val ∧ t.rxStream = s.rxStream

/-- The spec's own inference R85, part 2: under `WF_SYNC`, the block synchronizes at the last byte of the earliest
occurrence of the pattern; that it does not synchronize before is part 1. -/
def Obligations.SynchronizesAtTheFirstOccurrenceOfThePattern : Prop :=
  ∀ (s : State) (u : List Byte) (b : Byte), s.phase = .hunt 0 → WfSync s.cfg.syncPattern →
    PatternFree s.cfg.syncPattern u → s.cfg.syncPattern.toList <:+ u ++ [b] →
    ∃ t, performAll (rx (u ++ [b])) s = .next t ∧ t.phase = .len ∧ t.rxStream = s.rxStream

/-- The spec's own inference R85, last paragraph: under `WF_SYNC`, no occurrence of the pattern ends before the last
byte of noise followed by a marker exactly when the noise does not hold the pattern and does not end with its first
three bytes where the first byte equals the fourth. -/
def Obligations.MarkerAfterNoiseIsTheFirstOccurrence : Prop :=
  ∀ (P : SyncPattern) (noise : List Byte), WfSync P →
    (PatternFree P (noise ++ P.toList.take 3) ↔
      PatternFree P noise ∧ ¬ (P[0] = P[3] ∧ P.toList.take 3 <:+ noise))

/-- The spec's own inference R86: with a pattern that is not `WF_SYNC`, rule R81 applies as written and a marker can be
missed; the match index takes the values 1, 2, 1, 0, 0. -/
def Obligations.AmbiguousPatternCanMissItsMarker : Prop :=
  ∀ s : State, s.phase = .hunt 0 → s.cfg.syncPattern = #v[0xAA, 0xAA, 0xB0, 0xC0] →
    (∃ t, performAll (rx [0xAA]) s = .next t ∧ t.phase = .hunt 1) ∧
    (∃ t, performAll (rx [0xAA, 0xAA]) s = .next t ∧ t.phase = .hunt 2) ∧
    (∃ t, performAll (rx [0xAA, 0xAA, 0xAA]) s = .next t ∧ t.phase = .hunt 1) ∧
    (∃ t, performAll (rx [0xAA, 0xAA, 0xAA, 0xB0]) s = .next t ∧ t.phase = .hunt 0) ∧
    (∃ t, performAll (rx [0xAA, 0xAA, 0xAA, 0xB0, 0xC0]) s = .next t ∧ t.phase = .hunt 0)

/-- R28: "synchronized" is that the phase is not `HUNT`; it is set only by the full pattern match, and cleared only by
an invalid length, by a checksum mismatch, by a completed frame when `STAY_SYNCED` is false, and by `RST`. -/
def Obligations.SynchronizedChangesOnlyAsTheRulesSay : Prop :=
  (∀ phase : Phase, phase.synchronized = true ↔ ∀ mi, phase ≠ .hunt mi) ∧
  ∀ (i : Instr) (s t : State), exec i s = .next t →
    (s.phase.synchronized = false → t.phase.synchronized = true →
      s.phase = .hunt 3 ∧ i = .rxb s.cfg.syncPattern[3] ∧ t.phase = .len) ∧
    (s.phase.synchronized = true → t.phase.synchronized = false →
      t.phase = .hunt 0 ∧
      (i = .rst ∨
        (∃ b, i = .rxb b ∧ s.phase = .len ∧ (b = 0x00 ∨ b = 0xFF) ∧ t.ev = [.resyncBadLength b]) ∨
        (∃ b len acc computed received, i = .rxb b ∧ s.phase = .body len acc ∧ computed ≠ received ∧
          t.ev = [.resyncBadChecksum len computed received]) ∨
        (∃ b len acc f, i = .rxb b ∧ s.phase = .body len acc ∧ s.cfg.staySynced = false ∧ t.ev = [.frameOut f])))

/-! ### Transmitting -/

/-- R105 and R106: `TXF` sends length, command, zero pad, payload and checksum, and a payload over 252 bytes sends
nothing and is rejected; the receive state and every other field is unchanged. -/
def Obligations.TransmitFrameSendsTheEncodedFrame : Prop :=
  ∀ (s : State) (cmd : Byte) (payload : List Byte),
    opSelect (encode (.txf cmd payload)).word = 0x1 ∧
    (payload.length ≤ 252 →
      exec (.txf cmd payload) s = .next
        { s with
          ev := []
          tx := .sent ([lo8 (2 + payload.length)] ++ ([cmd, 0x00] ++ payload)
            ++ [csum (lo8 (2 + payload.length)) ([cmd, 0x00] ++ payload)])
          outcome := none
          txStream := s.txStream ++ ([lo8 (2 + payload.length)] ++ ([cmd, 0x00] ++ payload)
            ++ [csum (lo8 (2 + payload.length)) ([cmd, 0x00] ++ payload)]) }) ∧
    (252 < payload.length →
      exec (.txf cmd payload) s = .next { s with ev := [], tx := .reject .txTooLong, outcome := none })

/-- R108: `TXR` sends its bytes unchanged, with no check, whatever their number. -/
def Obligations.TransmitRawSendsTheBytesUnchanged : Prop :=
  ∀ (s : State) (bytes : List Byte),
    opSelect (encode (.txr bytes)).word = 0x2 ∧
    exec (.txr bytes) s = .next
      { s with ev := [], tx := .sent bytes, outcome := none, txStream := s.txStream ++ bytes }

/-- R111: the source's encode example, and the reference frame of R105. -/
def Obligations.ReferenceFramesAreSent : Prop :=
  ∀ s : State,
    (∃ t, exec (.txf 0x9F []) s = .next t ∧ t.tx = .sent [0x02, 0x9F, 0x00, 0xA1]) ∧
    (∃ t, exec (.txf 0xFF []) s = .next t ∧ t.tx = .sent [0x02, 0xFF, 0x00, 0x01])

/-- The spec's own inference R112: whatever `TXF` sends is the wire image of a valid record with a zero pad and a
length of at least 2. -/
def Obligations.SentFrameIsTheWireImageOfAValidRecord : Prop :=
  ∀ (s t : State) (cmd : Byte) (payload out : List Byte), exec (.txf cmd payload) s = .next t → t.tx = .sent out →
    ∃ f : Frame, out = f.wire ∧ f.Valid ∧ f.pad = some 0x00 ∧ 2 ≤ f.length.toNat ∧ f.command = cmd ∧
      f.payload = payload

/-- The spec's own inference R127: whatever a builder sends is the encoded frame of its command. -/
def Obligations.BuilderOutputIsAnEncodedFrame : Prop :=
  ∀ (i : Instr) (cmd : Byte) (s t : State) (out : List Byte),
    ((∃ a b c x y w f l, i = .cre a b c x y w f l) ∧ cmd = 0x10 ∨ (∃ a b c d e l, i = .chg a b c d e l) ∧ cmd = 0x11 ∨
      (∃ a b, i = .drw a b) ∧ cmd = 0x70 ∨ (∃ a b, i = .clr a b) ∧ cmd = 0x60) →
    exec i s = .next t → t.tx = .sent out →
    ∃ payload f, payload.length ≤ 252 ∧ out = encodeFrame cmd payload ∧ out = Frame.wire f ∧ f.Valid ∧
      f.pad = some 0x00

/-- The spec's own inference R109: from `HUNT 0`, the marker followed by an encoded frame emits exactly that frame,
for every pattern, command and payload. -/
def Obligations.DecodeOfEncodeGivesTheFrameBack : Prop :=
  ∀ (s : State) (cmd : Byte) (payload : List Byte), s.phase = .hunt 0 → payload.length ≤ 252 →
    ∃ t, performAll (rxsync s.cfg ++ rx (encodeFrame cmd payload)) s = .next t ∧
      t.rxStream = s.rxStream ++
        [.frameOut ⟨lo8 (2 + payload.length), cmd, some 0x00, payload,
          csum (lo8 (2 + payload.length)) ([cmd, 0x00] ++ payload)⟩] ∧
      t.phase = (if s.cfg.staySynced then .len else .hunt 0) ∧ t.txStream = s.txStream

/-- R104 and R115: no transmit, builder or classify operation reads or writes the receive state, and none emits a
receive event. The bytes it sends are exactly those its result reports. -/
def Obligations.TransmitSideLeavesTheReceiveStateAlone : Prop :=
  ∀ (i : Instr) (s t : State), onTransmitSide i = true → exec i s = .next t →
    t.phase = s.phase ∧ t.ev = [] ∧ t.rxStream = s.rxStream ∧ t.cfg = s.cfg ∧ t.port = s.port ∧
    (∀ out, t.tx = .sent out → t.txStream = s.txStream ++ out) ∧
    ((∀ out, t.tx ≠ .sent out) → t.txStream = s.txStream) ∧
    ∀ phase, ∃ u, exec i { s with phase := phase } = .next u ∧ u.tx = t.tx ∧ u.outcome = t.outcome ∧
      u.txStream = t.txStream

/-- The spec's own inference R47: moving a transmit operation past a received byte changes neither the receive events
nor the bytes sent. -/
def Obligations.TransmitAndReceiveOperationsCommute : Prop :=
  ∀ (i : Instr) (b : Byte) (s : State), onTransmitSide i = true →
    ∃ t u, performAll [i, .rxb b] s = .next t ∧ performAll [.rxb b, i] s = .next u ∧
      t.phase = u.phase ∧ t.rxStream = u.rxStream ∧ t.txStream = u.txStream

/-! ### Command helpers -/

/-- R117 and R118: `CRE` sends command 0x10 with the payload fields in the positions of R118; text over 241 bytes sends
nothing and is rejected. -/
def Obligations.CreateRegionSendsThePositionalPayload : Prop :=
  ∀ (s : State) (regionID sub0 sub1 : Byte) (xPos : Half) (yPos width fontStyle : Byte) (text payload : List Byte),
    payload = [regionID, s.cfg.creResA, sub0, sub1, s.cfg.creResFlag, fontStyle, width, s.cfg.creResB]
      ++ xBytes s.cfg xPos ++ [yPos] ++ text →
    opSelect (encode (.cre regionID sub0 sub1 xPos yPos width fontStyle text)).word = 0x8 ∧
    (text.length ≤ 241 →
      exec (.cre regionID sub0 sub1 xPos yPos width fontStyle text) s = .next
        { s with
          ev := []
          tx := .sent ([lo8 (13 + text.length), 0x10, 0x00] ++ payload
            ++ [csum (lo8 (13 + text.length)) ([0x10, 0x00] ++ payload)])
          outcome := none
          txStream := s.txStream ++ ([lo8 (13 + text.length), 0x10, 0x00] ++ payload
            ++ [csum (lo8 (13 + text.length)) ([0x10, 0x00] ++ payload)]) }) ∧
    (241 < text.length →
      exec (.cre regionID sub0 sub1 xPos yPos width fontStyle text) s = .next
        { s with ev := [], tx := .reject .txTooLong, outcome := none })

/-- R70: `xPos` is split into its high and its low byte, in the configured order. -/
def Obligations.XPositionIsSplitInTheConfiguredOrder : Prop :=
  ∀ (cfg : Config) (xPos : Half),
    (cfg.xByteOrder = .hiFirst → (xBytes cfg xPos).map BitVec.toNat = [xPos.toNat / 256, xPos.toNat % 256]) ∧
    (cfg.xByteOrder = .loFirst → (xBytes cfg xPos).map BitVec.toNat = [xPos.toNat % 256, xPos.toNat / 256])

/-- R121: `CHG` sends command 0x11 with the payload the configured layout gives; a layout over 252 bytes sends nothing
and is rejected. -/
def Obligations.ChangeRegionSendsTheConfiguredLayout : Prop :=
  ∀ (s : State) (regionID sub0 sub1 visible style : Byte) (text payload : List Byte),
    payload = changeLayout s.cfg ⟨regionID, sub0, sub1, visible, style, text⟩ →
    opSelect (encode (.chg regionID sub0 sub1 visible style text)).word = 0x9 ∧
    (payload.length ≤ 252 →
      exec (.chg regionID sub0 sub1 visible style text) s = .next
        { s with
          ev := []
          tx := .sent ([lo8 (2 + payload.length), 0x11, 0x00] ++ payload
            ++ [csum (lo8 (2 + payload.length)) ([0x11, 0x00] ++ payload)])
          outcome := none
          txStream := s.txStream ++ ([lo8 (2 + payload.length), 0x11, 0x00] ++ payload
            ++ [csum (lo8 (2 + payload.length)) ([0x11, 0x00] ++ payload)]) }) ∧
    (252 < payload.length →
      exec (.chg regionID sub0 sub1 visible style text) s = .next
        { s with ev := [], tx := .reject .txTooLong, outcome := none })

/-- R124 and R125: `DRW` sends six bytes with command 0x70 and payload region id, flag, whatever the flag. -/
def Obligations.DrawRegionSendsSixBytes : Prop :=
  ∀ (s : State) (regionID flag : Byte),
    opSelect (encode (.drw regionID flag)).word = 0xA ∧
    exec (.drw regionID flag) s = .next
      { s with
        ev := []
        tx := .sent [0x04, 0x70, 0x00, regionID, flag, csum 0x04 [0x70, 0x00, regionID, flag]]
        outcome := none
        txStream := s.txStream ++ [0x04, 0x70, 0x00, regionID, flag, csum 0x04 [0x70, 0x00, regionID, flag]] }

/-- R126: `CLR` sends six bytes with command 0x60 and payload region id, flag, whatever the flag. -/
def Obligations.ClearRegionSendsSixBytes : Prop :=
  ∀ (s : State) (regionID flag : Byte),
    opSelect (encode (.clr regionID flag)).word = 0xB ∧
    exec (.clr regionID flag) s = .next
      { s with
        ev := []
        tx := .sent [0x04, 0x60, 0x00, regionID, flag, csum 0x04 [0x60, 0x00, regionID, flag]]
        outcome := none
        txStream := s.txStream ++ [0x04, 0x60, 0x00, regionID, flag, csum 0x04 [0x60, 0x00, regionID, flag]] }

/-- R130 and R131: `CLS` returns `Ok` for command 0xFF; for command 0xFE the name of the payload byte at the configured
offset, or that there is no such byte; `NotAck` for every other command. It changes nothing and sends nothing. -/
def Obligations.ClassifierNamesTheReply : Prop :=
  ∀ (s : State) (f : Frame),
    opSelect (encode (.cls f)).word = 0xC ∧
    exec (.cls f) s = .next
      { s with
        ev := []
        tx := .nothing
        outcome := some
          (if f.command = 0xFF then .ok
          else if f.command = 0xFE then
            (if h : s.cfg.errCodeOffset < f.payload.length then
              .remoteError
                (if f.payload[s.cfg.errCodeOffset] = 0x33 then .regionExists
                else if f.payload[s.cfg.errCodeOffset] = s.cfg.codeInvalidCommand then .invalidCommand
                else if f.payload[s.cfg.errCodeOffset] = s.cfg.codeInvalidArgs then .invalidArgs
                else .unclassified f.payload[s.cfg.errCodeOffset])
            else .errCodeAbsent)
          else .notAck) }

/-- R64, under `WF_CODES` (R132): each named error code carried at the offset is classified by its own name. -/
def Obligations.DistinctErrorCodesKeepTheirNames : Prop :=
  ∀ (s : State) (f : Frame) (c : Byte), s.cfg.WfCodes → f.command = 0xFE → f.payload[s.cfg.errCodeOffset]? = some c →
    ∃ t, exec (.cls f) s = .next t ∧
      (c = 0x33 → t.outcome = some (.remoteError .regionExists)) ∧
      (c = s.cfg.codeInvalidCommand → t.outcome = some (.remoteError .invalidCommand)) ∧
      (c = s.cfg.codeInvalidArgs → t.outcome = some (.remoteError .invalidArgs)) ∧
      (c ≠ 0x33 → c ≠ s.cfg.codeInvalidCommand → c ≠ s.cfg.codeInvalidArgs →
        t.outcome = some (.remoteError (.unclassified c)))

/-! ### Reset -/

/-- R151: `RST` returns to `HUNT 0` from every phase, with no event and nothing sent; a frame in progress is discarded
silently, and bytes already sent stay sent. -/
def Obligations.ResetReturnsToHuntSilently : Prop :=
  ∀ s : State,
    opSelect (encode .rst).word = 0x3 ∧
    exec .rst s = .next { s with phase := .hunt 0, ev := [], tx := .nothing, outcome := none }

/-- The spec's own inference in R44 ("RST is idempotent"): a second `RST` changes nothing. -/
def Obligations.ResetTwiceIsResetOnce : Prop :=
  ∀ s : State, ∃ t, performAll [.rst] s = .next t ∧ performAll [.rst, .rst] s = .next t

/-- R34 and R152: after power-up the block hunts with nothing matched and both outputs empty, and the first received
byte is compared with the first pattern byte. -/
def Obligations.PowerUpHuntsForTheFirstPatternByte : Prop :=
  State.reset.phase = .hunt 0 ∧ State.reset.ev = [] ∧ State.reset.tx = .nothing ∧ State.reset.rxStream = [] ∧
    State.reset.txStream = [] ∧
    ∀ b : Byte, ∃ t, exec (.rxb b) State.reset = .next t ∧
      t.phase = (if b = State.reset.cfg.syncPattern[0] then .hunt 1 else .hunt 0)

/-! ### The port: encoding and stepping -/

/-- Decode and encode agree on every well-formed operation, every operand at every value (the lanes are the model's
own, note 4). -/
def Obligations.DecodeOfEncodeIsTheOperation : Prop :=
  ∀ i : Instr, i.wellFormed = true → decode (encode i) = .ok i

/-- Every operation the decoder gives is well-formed: a model admits only valid frames (R69; that frames are presented
by their body is the model's choice, note 4). -/
def Obligations.DecodedOperationIsWellFormed : Prop :=
  ∀ (p : PortOp) (i : Instr), decode p = .ok i → i.wellFormed = true

/-- The decoder refuses exactly the reserved op-selects and a classify operand longer than any valid frame (R68, R73;
the operand's form is the model's choice, note 4). -/
def Obligations.DecoderRefusesOnlyReservedSelectsAndOversizedFrames : Prop :=
  ∀ p : PortOp, (∃ e, decode p = .error e) ↔
    opSelect p.word ∈ [0x4, 0x5, 0x6, 0x7, 0xD, 0xE, 0xF] ∨ opSelect p.word = 0xC ∧ 254 ≤ p.bytes.length

/-- The nine op-selects of R68, on operand bits of zero and on words written out bit by bit; the upper half of the word
is not part of the op-select. The operand lanes are the model's own (note 4). -/
def Obligations.TableWordsDecodeToTheirOperations : Prop :=
  decodeTableWord 8 0b0000 = some (.rxb 0) ∧ decodeTableWord 8 0b0001 = some (.txf 0 []) ∧
  decodeTableWord 8 0b0010 = some (.txr []) ∧ decodeTableWord 8 0b0011 = some .rst ∧
  decodeTableWord 8 0b1000 = some (.cre 0 0 0 0 0 0 0 []) ∧ decodeTableWord 8 0b1001 = some (.chg 0 0 0 0 0 []) ∧
  decodeTableWord 8 0b1010 = some (.drw 0 0) ∧ decodeTableWord 8 0b1011 = some (.clr 0 0) ∧
  decodeTableWord 8 0b1100 = some (.cls ⟨1, 0, none, [], 1⟩) ∧
  decodeTableWord 8 0b11110011 = some .rst ∧
  decodeTableWord 24 0b00000001_00000101_00001010 = some (.drw 0x05 0x01)

/-- A step performs the operation presented: when the port's first entry decodes to an operation, the step takes it
from the port and is that operation's meaning on the rest (R14, R46; the port as a list in the state is the model's
choice, note 5). -/
def Obligations.StepPerformsThePresentedOperation : Prop :=
  ∀ (s : State) (p : PortOp) (rest : List PortOp) (i : Instr), s.port = p :: rest → decode p = .ok i →
    step s = exec i { s with port := rest }

/-- R73: a reserved op-select is refused by name. -/
def Obligations.ReservedSelectIsRefused : Prop :=
  ∀ (s : State) (p : PortOp) (rest : List PortOp), s.port = p :: rest →
    opSelect p.word ∈ [0x4, 0x5, 0x6, 0x7, 0xD, 0xE, 0xF] →
    step s = .refused (.reservedOp (opSelect p.word))

/-- A step with nothing presented holds the state unchanged (R149; the idle step is the model's choice, note 5). -/
def Obligations.IdleStepHoldsTheState : Prop :=
  ∀ s : State, s.port = [] → step s = .next s

/-- A word placed at the port is what the next step performs, on the state it was placed in (notes 4 and 5). -/
def Obligations.PlacedWordIsPerformedNext : Prop :=
  ∀ (s : State) (nbits w : Nat) (i : Instr), decodeTableWord nbits w = some i →
    step (s.withFetchWord nbits w) = exec i s

/-- Operations presented together are performed one at a time in the order presented (R46; the port as a list is the
model's choice, note 5). -/
def Obligations.PresentedOperationsArePerformedInOrder : Prop :=
  ∀ (s : State) (ops : List Instr) (rest : List PortOp), (∀ i ∈ ops, i.wellFormed = true) →
    ∃ t, Host.Core.run Sys2Proof.core ops.length { s with port := ops.map encode ++ rest } = .next t ∧
      performAll ops { s with port := rest } = .next t

/-- No failure stops the block (R19): a step answers a next state, and the one exception is the model's own refusal of a
presented word that the decoder gives no meaning (R73; the oversized classify operand is the model's choice, note 4). -/
def Obligations.OnlyAnUndecodableOperationStopsARun : Prop :=
  ∀ s : State, (∃ t, step s = .next t) ∨
    ∃ p rest e, s.port = p :: rest ∧ decode p = .error e ∧ step s = .refused (refusalOf e)

/-! ### Invariants and whole-machine rules -/

/-- The reset state meets `INV`, and it has emitted no frame. -/
def Obligations.PowerUpMeetsTheInvariants : Prop :=
  State.reset.Inv ∧ State.reset.EventsValid

/-- The spec's own inference R26: every step keeps `INV`. -/
def Obligations.EveryStepKeepsThePhaseInvariant : Prop :=
  ∀ s t : State, s.Inv → step s = .next t → t.Inv

/-- R66: every frame emitted is valid; with `INV`, every step keeps that all frames emitted so far are valid, and those
already emitted stay as they are (R155). -/
def Obligations.EveryStepEmitsOnlyValidFrames : Prop :=
  ∀ s t : State, s.Inv → s.EventsValid → step s = .next t →
    t.EventsValid ∧ ∃ new, t.rxStream = s.rxStream ++ new

/-- R31, R46: an operation emits at most one receive event, only `RXB` emits one, only a transmit operation sends, and
both outputs only grow at their end, by what the operation's result reports. -/
def Obligations.EachOperationEmitsAtMostOneEvent : Prop :=
  ∀ (i : Instr) (s t : State), exec i s = .next t →
    t.ev.length ≤ 1 ∧ t.rxStream = s.rxStream ++ t.ev ∧ t.txStream = s.txStream ++ t.tx.bytes ∧
    (t.ev ≠ [] → ∃ b, i = .rxb b) ∧ (t.tx ≠ .nothing → onTransmitSide i = true ∧ ∀ f, i ≠ .cls f)

/-- R29, R8: no step writes the configuration. -/
def Obligations.NoStepWritesTheConfiguration : Prop :=
  ∀ s t : State, step s = .next t → t.cfg = s.cfg

/-- R37: nothing but the phase survives from one operation to the next. Two states of one configuration and one phase
give the same next phase and the same events and results, whatever was emitted, sent or presented before. -/
def Obligations.OnlyThePhaseInfluencesLaterOperations : Prop :=
  ∀ (i : Instr) (s s' : State), s.cfg = s'.cfg → s.phase = s'.phase →
    ∃ t t', exec i s = .next t ∧ exec i s' = .next t' ∧ t.phase = t'.phase ∧ t.ev = t'.ev ∧ t.tx = t'.tx ∧
      t.outcome = t'.outcome

/-- R134: the numeric codes of the three error conditions, and which event reports which. -/
def Obligations.ErrorConditionsHaveTheirCodes : Prop :=
  ErrCode.badLength.number = 1 ∧ ErrCode.badChecksum.number = 2 ∧ ErrCode.txTooLong.number = 3 ∧
  (∀ b, (RxEvent.resyncBadLength b).errCode = some .badLength) ∧
  (∀ l c r, (RxEvent.resyncBadChecksum l c r).errCode = some .badChecksum) ∧
  ∀ f, (RxEvent.frameOut f).errCode = none

/-- R72: the pseudo-operations and their expansions. -/
def Obligations.PseudoOperationsExpandAsListed : Prop :=
  ∀ (cfg : Config) (events : List RxEvent),
    (∀ bytes, (AsmLine.rx bytes).expand cfg events = some (bytes.map .rxb)) ∧
    AsmLine.rxsync.expand cfg events = some
      [.rxb cfg.syncPattern[0], .rxb cfg.syncPattern[1], .rxb cfg.syncPattern[2], .rxb cfg.syncPattern[3]] ∧
    (∀ cmd payload, payload.length ≤ 252 → (AsmLine.rxframe cmd payload).expand cfg events = some
      ([.rxb cfg.syncPattern[0], .rxb cfg.syncPattern[1], .rxb cfg.syncPattern[2], .rxb cfg.syncPattern[3]]
        ++ (encodeFrame cmd payload).map .rxb)) ∧
    (∀ r, (AsmLine.drwDefault r).expand cfg events = some [.drw r 1]) ∧
    (∀ r, (AsmLine.clrDefault r).expand cfg events = some [.clr r 1]) ∧
    (∀ a b c x y w f, (AsmLine.creNoText a b c x y w f).expand cfg events = some [.cre a b c x y w f []]) ∧
    ∀ a b c d e, (AsmLine.chgNoText a b c d e).expand cfg events = some [.chg a b c d e []]
end

