-- ==== Sys2Proof/Laws/Checksum.lean ====
section
/-! SUPPORT. The checksum and frame functions, one lemma for each way they are built up. -/

namespace Sys2Proof.Machine

@[simp] theorem lo8_toNat (v : Nat) : (lo8 v).toNat = v % 256 := rfl

@[simp] theorem byteSum_nil : byteSum [] = 0 := rfl

@[simp] theorem byteSum_cons (b : Byte) (l : List Byte) : byteSum (b :: l) = b.toNat + byteSum l := rfl

@[simp] theorem byteSum_append (l m : List Byte) : byteSum (l ++ m) = byteSum l + byteSum m := by
  simp [byteSum]

theorem sum8_toNat (l : List Byte) : (sum8 l).toNat = byteSum l % 256 := rfl

/-- Two bodies of one length byte have the same checksum exactly when their sums agree modulo 256 (R159). -/
theorem csum_eq_iff (len : Byte) (l m : List Byte) : csum len l = csum len m ↔ byteSum l % 256 = byteSum m % 256 := by
  simp only [csum, BitVec.toNat_eq, sum8_toNat, byteSum_cons]
  omega

@[simp] theorem encodeFrame_length (cmd : Byte) (payload : List Byte) :
    (encodeFrame cmd payload).length = payload.length + 4 := by
  simp [encodeFrame]

theorem encodeFrame_eq (cmd : Byte) (payload : List Byte) : encodeFrame cmd payload =
    lo8 (2 + payload.length) :: (cmd :: padByte :: payload)
      ++ [csum (lo8 (2 + payload.length)) (cmd :: padByte :: payload)] := by
  simp [encodeFrame]

/-- A minimal frame: the body is the command alone (R97). -/
theorem mkFrame_minimal (c chk : Byte) : mkFrame 1 [c] chk = ⟨1, c, none, [], chk⟩ := rfl

/-- A frame with a pad (R94). -/
theorem mkFrame_padded (len c p : Byte) (payload : List Byte) (chk : Byte) (h : len.toNat = payload.length + 2) :
    mkFrame len (c :: p :: payload) chk = ⟨len, c, some p, payload, chk⟩ := by
  simp [mkFrame, h]

end Sys2Proof.Machine
end

