-- ==== Sys2Proof/Laws/State.lean ====
section
/-! SUPPORT. What each named operation leaves in each field of the state: one lemma per field per operation. -/

namespace Sys2Proof.Machine

variable (s : State)

@[simp] theorem State.receiveTo_cfg (ph : Phase) (es : List RxEvent) : (s.receiveTo ph es).cfg = s.cfg := rfl
@[simp] theorem State.receiveTo_port (ph : Phase) (es : List RxEvent) : (s.receiveTo ph es).port = s.port := rfl
@[simp] theorem State.receiveTo_phase (ph : Phase) (es : List RxEvent) : (s.receiveTo ph es).phase = ph := rfl
@[simp] theorem State.receiveTo_ev (ph : Phase) (es : List RxEvent) : (s.receiveTo ph es).ev = es := rfl
@[simp] theorem State.receiveTo_tx (ph : Phase) (es : List RxEvent) : (s.receiveTo ph es).tx = .nothing := rfl
@[simp] theorem State.receiveTo_outcome (ph : Phase) (es : List RxEvent) : (s.receiveTo ph es).outcome = none := rfl
@[simp] theorem State.receiveTo_rxStream (ph : Phase) (es : List RxEvent) : (s.receiveTo ph es).rxStream = s.rxStream ++ es := rfl
@[simp] theorem State.receiveTo_txStream (ph : Phase) (es : List RxEvent) : (s.receiveTo ph es).txStream = s.txStream := rfl

@[simp] theorem State.emitFrame_cfg (ph : Phase) (f : Frame) : (s.emitFrame ph f).cfg = s.cfg := rfl
@[simp] theorem State.emitFrame_port (ph : Phase) (f : Frame) : (s.emitFrame ph f).port = s.port := rfl
@[simp] theorem State.emitFrame_phase (ph : Phase) (f : Frame) : (s.emitFrame ph f).phase = ph := rfl
@[simp] theorem State.emitFrame_ev (ph : Phase) (f : Frame) : (s.emitFrame ph f).ev = [.frameOut f] := rfl
@[simp] theorem State.emitFrame_tx (ph : Phase) (f : Frame) : (s.emitFrame ph f).tx = .nothing := rfl
@[simp] theorem State.emitFrame_outcome (ph : Phase) (f : Frame) : (s.emitFrame ph f).outcome = none := rfl
@[simp] theorem State.emitFrame_rxStream (ph : Phase) (f : Frame) : (s.emitFrame ph f).rxStream = s.rxStream ++ [.frameOut f] := rfl
@[simp] theorem State.emitFrame_txStream (ph : Phase) (f : Frame) : (s.emitFrame ph f).txStream = s.txStream := rfl

@[simp] theorem State.resync_cfg (e : RxEvent) : (s.resync e).cfg = s.cfg := rfl
@[simp] theorem State.resync_port (e : RxEvent) : (s.resync e).port = s.port := rfl
@[simp] theorem State.resync_phase (e : RxEvent) : (s.resync e).phase = .hunt 0 := rfl
@[simp] theorem State.resync_ev (e : RxEvent) : (s.resync e).ev = [e] := rfl
@[simp] theorem State.resync_tx (e : RxEvent) : (s.resync e).tx = .nothing := rfl
@[simp] theorem State.resync_outcome (e : RxEvent) : (s.resync e).outcome = none := rfl
@[simp] theorem State.resync_rxStream (e : RxEvent) : (s.resync e).rxStream = s.rxStream ++ [e] := rfl
@[simp] theorem State.resync_txStream (e : RxEvent) : (s.resync e).txStream = s.txStream := rfl

@[simp] theorem State.transmit_cfg (r : TxResult) : (s.transmit r).cfg = s.cfg := rfl
@[simp] theorem State.transmit_port (r : TxResult) : (s.transmit r).port = s.port := rfl
@[simp] theorem State.transmit_phase (r : TxResult) : (s.transmit r).phase = s.phase := rfl
@[simp] theorem State.transmit_ev (r : TxResult) : (s.transmit r).ev = [] := rfl
@[simp] theorem State.transmit_tx (r : TxResult) : (s.transmit r).tx = r := rfl
@[simp] theorem State.transmit_outcome (r : TxResult) : (s.transmit r).outcome = none := rfl
@[simp] theorem State.transmit_rxStream (r : TxResult) : (s.transmit r).rxStream = s.rxStream := rfl
@[simp] theorem State.transmit_txStream (r : TxResult) : (s.transmit r).txStream = s.txStream ++ r.bytes := rfl

@[simp] theorem State.classified_cfg (o : ReplyOutcome) : (s.classified o).cfg = s.cfg := rfl
@[simp] theorem State.classified_port (o : ReplyOutcome) : (s.classified o).port = s.port := rfl
@[simp] theorem State.classified_phase (o : ReplyOutcome) : (s.classified o).phase = s.phase := rfl
@[simp] theorem State.classified_ev (o : ReplyOutcome) : (s.classified o).ev = [] := rfl
@[simp] theorem State.classified_tx (o : ReplyOutcome) : (s.classified o).tx = .nothing := rfl
@[simp] theorem State.classified_outcome (o : ReplyOutcome) : (s.classified o).outcome = some o := rfl
@[simp] theorem State.classified_rxStream (o : ReplyOutcome) : (s.classified o).rxStream = s.rxStream := rfl
@[simp] theorem State.classified_txStream (o : ReplyOutcome) : (s.classified o).txStream = s.txStream := rfl

@[simp] theorem State.restart_cfg : (s.restart).cfg = s.cfg := rfl
@[simp] theorem State.restart_port : (s.restart).port = s.port := rfl
@[simp] theorem State.restart_phase : (s.restart).phase = .hunt 0 := rfl
@[simp] theorem State.restart_ev : (s.restart).ev = [] := rfl
@[simp] theorem State.restart_tx : (s.restart).tx = .nothing := rfl
@[simp] theorem State.restart_outcome : (s.restart).outcome = none := rfl
@[simp] theorem State.restart_rxStream : (s.restart).rxStream = s.rxStream := List.append_nil _
@[simp] theorem State.restart_txStream : (s.restart).txStream = s.txStream := rfl

@[simp] theorem State.reset_phase : State.reset.phase = .hunt 0 := rfl
@[simp] theorem State.reset_port : State.reset.port = [] := rfl
@[simp] theorem State.reset_ev : State.reset.ev = [] := rfl
@[simp] theorem State.reset_tx : State.reset.tx = .nothing := rfl
@[simp] theorem State.reset_outcome : State.reset.outcome = none := rfl
@[simp] theorem State.reset_rxStream : State.reset.rxStream = [] := rfl
@[simp] theorem State.reset_txStream : State.reset.txStream = [] := rfl
@[simp] theorem State.reset_cfg : State.reset.cfg = Config.built := rfl
@[simp] theorem State.withFetchWord_cfg (nbits w : Nat) : (s.withFetchWord nbits w).cfg = s.cfg := rfl
@[simp] theorem State.withFetchWord_port (nbits w : Nat) : (s.withFetchWord nbits w).port = portOpOfBits nbits w :: s.port := rfl
@[simp] theorem State.withFetchWord_phase (nbits w : Nat) : (s.withFetchWord nbits w).phase = s.phase := rfl
@[simp] theorem State.withFetchWord_ev (nbits w : Nat) : (s.withFetchWord nbits w).ev = s.ev := rfl
@[simp] theorem State.withFetchWord_tx (nbits w : Nat) : (s.withFetchWord nbits w).tx = s.tx := rfl
@[simp] theorem State.withFetchWord_outcome (nbits w : Nat) : (s.withFetchWord nbits w).outcome = s.outcome := rfl
@[simp] theorem State.withFetchWord_rxStream (nbits w : Nat) : (s.withFetchWord nbits w).rxStream = s.rxStream := rfl
@[simp] theorem State.withFetchWord_txStream (nbits w : Nat) : (s.withFetchWord nbits w).txStream = s.txStream := rfl

end Sys2Proof.Machine
end

