-- ==== Sys2Proof/Laws/Ops.lean ====
section
/-! SUPPORT. For each shared operation one lemma that says once everything it can do. -/

namespace Sys2Proof.Machine

/-- The synchronizer's four cases (R78 to R81). -/
theorem huntStep_cases (mi : Fin 4) (b : Byte) (s : State) :
    (b = s.cfg.syncPattern[mi] ∧ mi = 3 ∧ huntStep mi b s = s.receiveTo .len [])
      ∨ (b = s.cfg.syncPattern[mi] ∧ mi ≠ 3 ∧ huntStep mi b s = s.receiveTo (.hunt (mi + 1)) [])
      ∨ (b ≠ s.cfg.syncPattern[mi] ∧ b = s.cfg.syncPattern[0] ∧ huntStep mi b s = s.receiveTo (.hunt 1) [])
      ∨ (b ≠ s.cfg.syncPattern[mi] ∧ b ≠ s.cfg.syncPattern[0] ∧ huntStep mi b s = s.receiveTo (.hunt 0) []) := by
  unfold huntStep
  split
  · rename_i h
    split
    · rename_i h3; exact .inl ⟨h, h3, rfl⟩
    · rename_i h3; exact .inr (.inl ⟨h, h3, rfl⟩)
  · rename_i h
    split
    · rename_i h0; exact .inr (.inr (.inl ⟨h, h0, rfl⟩))
    · rename_i h0; exact .inr (.inr (.inr ⟨h, h0, rfl⟩))

/-- A length byte is accepted exactly when it is 1 to 254 (R53). -/
theorem lengthAccepted_iff (b : Byte) : lengthAccepted b = true ↔ 1 ≤ b.toNat ∧ b.toNat ≤ 254 := by
  unfold lengthAccepted lenMin lenMax
  exact decide_eq_true_iff

/-- The two cases of a length byte (R88). -/
theorem lenStep_cases (b : Byte) (s : State) :
    ((1 ≤ b.toNat ∧ b.toNat ≤ 254) ∧ lenStep b s = s.receiveTo (.body b []) [])
      ∨ (¬ (1 ≤ b.toNat ∧ b.toNat ≤ 254) ∧ lenStep b s = s.resync (.resyncBadLength b)) := by
  unfold lenStep
  split
  · rename_i h; exact .inl ⟨(lengthAccepted_iff b).1 h, rfl⟩
  · rename_i h; exact .inr ⟨fun h' => h ((lengthAccepted_iff b).2 h'), rfl⟩

/-- The two cases of a completion (R92, R93). -/
theorem completeFrame_cases (len : Byte) (body : List Byte) (chk : Byte) (s : State) :
    (csum len body = chk ∧ completeFrame len body chk s
        = s.emitFrame (if s.cfg.staySynced then .len else .hunt 0) (mkFrame len body chk))
      ∨ (csum len body ≠ chk ∧ completeFrame len body chk s
        = s.resync (.resyncBadChecksum len (csum len body) chk)) := by
  unfold completeFrame
  split
  · rename_i h; exact .inl ⟨h, rfl⟩
  · rename_i h; exact .inr ⟨h, rfl⟩

/-- A body byte with more to come (R91). -/
theorem bodyStep_more (len : Byte) (acc : List Byte) (b : Byte) (s : State) (h : acc.length < len.toNat) :
    bodyStep len acc b s = s.receiveTo (.body len (acc ++ [b])) [] := by
  have h' : (acc ++ [b]).length ≤ len.toNat := by simpa using h
  simp only [bodyStep, dif_pos h']

/-- The byte after a full body is the checksum (R91). -/
theorem bodyStep_last (len : Byte) (acc : List Byte) (b : Byte) (s : State) (h : acc.length = len.toNat) :
    bodyStep len acc b s = completeFrame len acc b s := by
  have h' : ¬ (acc ++ [b]).length ≤ len.toNat := by simp [h]
  simp only [bodyStep, dif_neg h']
  rw [List.take_left' h, List.getElem_append_right (Nat.le_of_eq h)]
  simp [h]

/-- Every operation completes with a next state: no condition of the block is a halt (R19, R135). -/
theorem exec_next (i : Instr) (s : State) : ∃ t, exec i s = .next t := by
  cases i <;> exact ⟨_, rfl⟩

/-- What sending one frame can give (R105, R106). -/
theorem frameResult_cases (cmd : Byte) (payload : List Byte) :
    (payload.length ≤ 252 ∧ frameResult cmd payload = .sent (encodeFrame cmd payload))
      ∨ (252 < payload.length ∧ frameResult cmd payload = .reject .txTooLong) := by
  unfold frameResult payloadMax
  split
  · rename_i h; exact .inr ⟨h, rfl⟩
  · rename_i h; exact .inl ⟨Nat.le_of_not_lt h, rfl⟩

/-- What taking an operation from the port can give (R46). -/
theorem takeOp_cases (s : State) :
    (s.port = [] ∧ s.takeOp = none)
      ∨ ∃ p rest, s.port = p :: rest ∧ s.takeOp = some (p, { s with port := rest }) := by
  unfold State.takeOp
  split
  · rename_i h; exact .inl ⟨h, rfl⟩
  · rename_i p rest h; exact .inr ⟨p, rest, h, rfl⟩

/-- What a step that answers a next state can be: idle, or one decoded operation performed (R14, R149). -/
theorem step_next_cases {s t : State} (h : step s = .next t) :
    (s.port = [] ∧ t = s)
      ∨ ∃ p rest i, s.port = p :: rest ∧ decode p = .ok i ∧ exec i { s with port := rest } = .next t := by
  rcases takeOp_cases s with ⟨hp, ht⟩ | ⟨p, rest, hp, ht⟩
  · simp only [step, ht, Host.Outcome.next.injEq] at h
    exact .inl ⟨hp, h.symm⟩
  · simp only [step, ht] at h
    split at h
    · rename_i i hd; exact .inr ⟨p, rest, i, hp, hd, h⟩
    · cases h

@[simp] theorem performAll_nil (s : State) : performAll [] s = .next s := rfl

theorem performAll_cons {i : Instr} {s t : State} (h : exec i s = .next t) (rest : List Instr) :
    performAll (i :: rest) s = performAll rest t := by
  simp only [performAll, h]

/-- A sequence in two parts is its first part, then its second (R46, R156). -/
theorem performAll_append {a : List Instr} {s t : State} (h : performAll a s = .next t) (b : List Instr) :
    performAll (a ++ b) s = performAll b t := by
  induction a generalizing s with
  | nil => simp only [performAll_nil, Host.Outcome.next.injEq] at h; simp [h]
  | cons i rest ih =>
    obtain ⟨u, hu⟩ := exec_next i s
    rw [performAll_cons hu] at h
    rw [List.cons_append, performAll_cons hu, ih h]

/-- A finite sequence of operations always completes (R19, R166). -/
theorem performAll_next (a : List Instr) (s : State) : ∃ t, performAll a s = .next t := by
  induction a generalizing s with
  | nil => exact ⟨s, rfl⟩
  | cons i rest ih =>
    obtain ⟨u, hu⟩ := exec_next i s
    simpa only [performAll_cons hu] using ih u

end Sys2Proof.Machine
end

