-- ==== Sys2Proof/Laws/PerInstr.lean ====
section
/-! SUPPORT. The per-instruction family: the encoder gives every operation one of the assigned op-selects of R68. -/

namespace Sys2Proof.Laws.OpSelectAssigned

/-- The op-select of the operation's word is one of the nine assigned ones (R68). -/
def Statement (i : Instr) : Prop := opSelect (encode i).word ∈ [0x0, 0x1, 0x2, 0x3, 0x8, 0x9, 0xA, 0xB, 0xC]

theorem rxb (b : Byte) : Statement (.rxb b) := by simp only [Statement, encode]; decide
theorem txf (cmd : Byte) (payload : List Byte) : Statement (.txf cmd payload) := by
  simp only [Statement, encode]; decide
theorem txr (bytes : List Byte) : Statement (.txr bytes) := by simp only [Statement, encode]; decide
theorem rst : Statement .rst := by simp only [Statement, encode]; decide
theorem cre (regionID sub0 sub1 : Byte) (xPos : Half) (yPos width fontStyle : Byte) (text : List Byte) :
    Statement (.cre regionID sub0 sub1 xPos yPos width fontStyle text) := by simp only [Statement, encode]; decide
theorem chg (regionID sub0 sub1 visible style : Byte) (text : List Byte) :
    Statement (.chg regionID sub0 sub1 visible style text) := by simp only [Statement, encode]; decide
theorem drw (regionID flag : Byte) : Statement (.drw regionID flag) := by simp only [Statement, encode]; decide
theorem clr (regionID flag : Byte) : Statement (.clr regionID flag) := by simp only [Statement, encode]; decide
theorem cls (f : Frame) : Statement (.cls f) := by simp only [Statement, encode]; decide

end Sys2Proof.Laws.OpSelectAssigned
end

