-- ==== Sys2Proof/Tests/Slice0.lean ====
section
/-! SUPPORT. Tests: the well-formedness smoke, words written out from the encoding of R68, test vectors of section 95 of
the spec (each named in its comment), and for every statement with hypotheses a witness that meets them all. -/

namespace Sys2Proof.Tests

open Sys2Proof.Machine

/-- The illustrative configuration of the spec's vectors (92 D1, R119); not a claim about the device. -/
def cfg : Config where
  syncPattern := #v[0xA5, 0x5A, 0xC3, 0x3C]
  staySynced := false
  errCodeOffset := 0
  codeInvalidCommand := 0x01
  codeInvalidArgs := 0x02
  creResA := 0x00
  creResFlag := 0x00
  creResB := 0x00
  xByteOrder := .hiFirst
  changeLayoutPoints :=
    [(⟨0x05, 0x01, 0x02, 0x01, 0x00, [0x41]⟩, [0x05, 0x01, 0x41]),
      (⟨0x06, 0, 0, 0, 0, []⟩, List.replicate 252 0), (⟨0x07, 0, 0, 0, 0, []⟩, List.replicate 253 0)]
  rawMax := 0

/-- The reset state with that configuration, in the given phase. -/
def inPhase (phase : Phase) : State := { State.reset with cfg := cfg, phase := phase }

/-- The next state of an outcome, as an option. -/
def nextOf : Host.Outcome State Fault Refusal → Option State
  | .next t => some t
  | .fault _ => none
  | .refused _ => none

/-! ### Well-formedness: an ill-formed term for each check (R9, R66, R69, R132) -/

theorem test_cls_admits_valid_frame : (Instr.cls ⟨3, 0xFE, some 0, [0x33], 0x34⟩).wellFormed = true := by decide
theorem test_cls_refuses_length_zero : (Instr.cls ⟨0, 0, some 0, [], 0⟩).wellFormed = false := by decide
theorem test_cls_refuses_length_255 :
    (Instr.cls ⟨0xFF, 0, some 0, List.replicate 253 0, 0xFF⟩).wellFormed = false := by decide +kernel
theorem test_cls_refuses_missing_pad : (Instr.cls ⟨2, 0xFF, none, [], 0x01⟩).wellFormed = false := by decide
theorem test_cls_refuses_pad_of_minimal_frame : (Instr.cls ⟨1, 0x9F, some 0, [], 0xA0⟩).wellFormed = false := by decide
theorem test_cls_refuses_wrong_payload_length : (Instr.cls ⟨3, 0xFF, some 0, [], 0x02⟩).wellFormed = false := by decide
theorem test_cls_refuses_wrong_checksum : (Instr.cls ⟨2, 0xFF, some 0, [], 0x02⟩).wellFormed = false := by decide
theorem test_wfSync_refuses_doubled_first_byte : ¬ WfSync #v[0xAA, 0xAA, 0xB0, 0xC0] := by decide
theorem test_wfSync_refuses_first_byte_third : ¬ WfSync #v[0xAA, 0xB0, 0xAA, 0xC0] := by decide
theorem test_wfCodes_refuses_equal_codes : ¬ { cfg with codeInvalidArgs := 0x33 }.WfCodes := by decide

/-! ### Decoding: words written out from R68, operation word lowest, then the lanes (note 4) -/

theorem test_decode_rxb : decodeTableWord 16 0b10100101_00000000 = some (.rxb 0xA5) := by decide
theorem test_decode_txf : decodeTableWord 16 0b10011111_00000001 = some (.txf 0x9F []) := by decide
theorem test_decode_txf_payload :
    decode { word := 0b00000001, lane0 := 0xFE, bytes := [0x33] } = .ok (.txf 0xFE [0x33]) := rfl
theorem test_decode_txr :
    decode { word := 0b00000010, bytes := [0x02, 0xFF] } = .ok (.txr [0x02, 0xFF]) := rfl
theorem test_decode_rst : decodeTableWord 8 0b00000011 = some .rst := by decide
theorem test_decode_cre : decodeTableWord 72 0x00_40_10_01_02_03_02_01_08
    = some (.cre 0x01 0x02 0x03 0x0102 0x10 0x40 0x00 []) := by decide
theorem test_decode_chg : decodeTableWord 48 0x05_04_03_02_01_09 = some (.chg 0x01 0x02 0x03 0x04 0x05 []) := by decide
theorem test_decode_drw : decodeTableWord 24 0b00000001_00000101_00001010 = some (.drw 0x05 0x01) := by decide
theorem test_decode_clr : decodeTableWord 24 0b11111111_00000101_00001011 = some (.clr 0x05 0xFF) := by decide
theorem test_decode_cls : decode { word := 0b00001100, lane0 := 0xFE, bytes := [0x00, 0x33] }
    = .ok (.cls ⟨0x03, 0xFE, some 0x00, [0x33], 0x34⟩) := rfl
theorem test_decode_reserved : [0x4, 0x5, 0x6, 0x7, 0xD, 0xE, 0xF].map (decodeTableWord 8) = List.replicate 7 none := by
  decide
theorem test_decode_oversized_frame :
    decode { word := 0xC, bytes := List.replicate 254 0 } = .error (.notAFrame 255) := by decide +kernel

/-- Every row's word, placed at the port of the reset state, is performed by the first step. -/
theorem test_first_step_after_reset : ([0x0, 0x1, 0x2, 0x3, 0x8, 0x9, 0xA, 0xB, 0xC].map fun w =>
    (nextOf (step (State.reset.withFetchWord 8 w))).isSome) = List.replicate 9 true := rfl
/-- A reserved op-select is refused by name (R73). -/
theorem test_reserved_refused : (match step (State.reset.withFetchWord 8 0x7) with
    | .refused r => decide (r = .reservedOp 7)
    | .next _ => false
    | .fault _ => false) = true := by decide

/-! ### One step per vector of section 95 -/

/-- V-S7: the mismatching byte is re-tested against the first pattern byte. -/
theorem test_rxb_retest : (nextOf (exec (.rxb 0xA5) (inPhase (.hunt 2)))).map State.phase = some (.hunt 1) := by decide
/-- V-B6: a non-zero pad is accepted. -/
theorem test_rxb_nonzero_pad : (nextOf (exec (.rxb 0x34) (inPhase (.body 3 [0xFE, 0x01, 0x32])))).map State.ev
    = some [.frameOut ⟨3, 0xFE, some 0x01, [0x32], 0x34⟩] := by decide
/-- V-T5: the checksum wraps. -/
theorem test_txf_wraps : (nextOf (exec (.txf 0xFF [0xFF]) (inPhase .len))).map State.tx
    = some (.sent [0x03, 0xFF, 0x00, 0xFF, 0x01]) := by decide
/-- V-T7: 253 bytes are rejected and nothing is sent. -/
theorem test_txf_rejects : (nextOf (exec (.txf 0x00 (List.replicate 253 0)) (inPhase .len))).map
    (fun t => (t.tx, t.txStream)) = some (.reject .txTooLong, []) := by decide +kernel
/-- V-T10: a bad checksum is sent unchanged. -/
theorem test_txr_verbatim : (nextOf (exec (.txr [0x02, 0xFF, 0x00, 0x05]) (inPhase .len))).map State.txStream
    = some [0x02, 0xFF, 0x00, 0x05] := by decide
/-- V-B10: a frame in progress is discarded with no event. -/
theorem test_rst_discards : (nextOf (exec .rst (inPhase (.body 3 [0xFE, 0x00])))).map (fun t => (t.phase, t.ev))
    = some (.hunt 0, []) := by decide
/-- V-H5, R119. -/
theorem test_cre_example :
    (nextOf (exec (.cre 0x01 0x02 0x03 0x0102 0x10 0x40 0x00 (textBytes ['A', 'B'])) (inPhase .len))).map State.tx
    = some (.sent [0x0F, 0x10, 0x00, 0x01, 0x00, 0x02, 0x03, 0x00, 0x00, 0x40, 0x00, 0x01, 0x02, 0x10, 0x41, 0x42,
        0xFB]) := by decide
/-- V-H7: 242 text bytes are rejected. -/
theorem test_cre_rejects : (nextOf (exec (.cre 0 0 0 0 0 0 0 (List.replicate 242 0)) (inPhase .len))).map State.tx
    = some (.reject .txTooLong) := by decide +kernel
/-- V-H8 at a known point of the layout; the checksum is 0x05 + 0x11 + 0x05 + 0x01 + 0x41 by hand. -/
theorem test_chg_layout : (nextOf (exec (.chg 0x05 0x01 0x02 0x01 0x00 [0x41]) (inPhase .len))).map State.tx
    = some (.sent [0x05, 0x11, 0x00, 0x05, 0x01, 0x41, 0x5D]) := by decide
/-- V-H1. -/
theorem test_drw_default : (nextOf (exec (.drw 0x05 0x01) (inPhase .len))).map State.tx
    = some (.sent [0x04, 0x70, 0x00, 0x05, 0x01, 0x7A]) := by decide
/-- V-H4: the checksum wraps. -/
theorem test_clr_wraps : (nextOf (exec (.clr 0xFF 0xFF) (inPhase .len))).map State.tx
    = some (.sent [0x04, 0x60, 0x00, 0xFF, 0xFF, 0x62]) := by decide
/-- V-C7: the code stands at offset 2. -/
theorem test_cls_offset : (nextOf (exec (.cls ⟨5, 0xFE, some 0, [0x01, 0x02, 0x33], 0x39⟩)
    { inPhase .len with cfg := { cfg with errCodeOffset := 2 } })).map State.outcome
    = some (some (.remoteError .regionExists)) := by decide
/-- V-C5: an error frame too short for the code. -/
theorem test_cls_absent : (nextOf (exec (.cls ⟨2, 0xFE, some 0, [], 0x00⟩) (inPhase .len))).map State.outcome
    = some (some .errCodeAbsent) := by decide
/-- R71: `cls` of an event that is no frame has no expansion, of a frame event it is the operation on that frame. -/
theorem test_asm_cls_event :
    (AsmLine.clsEvent 2).expand cfg [.resyncBadLength 0, .frameOut ⟨1, 0x9F, none, [], 0xA0⟩]
      = some [.cls ⟨1, 0x9F, none, [], 0xA0⟩] ∧
    (AsmLine.clsEvent 1).expand cfg [.resyncBadLength 0] = none ∧ (AsmLine.clsEvent 0).expand cfg [] = none := by decide
/-- R71: `drw 0x05, 0` is written as mnemonic, number, comma, number. -/
theorem test_asm_tokens : (AsmLine.op (.drw 5 0)).tokens = some [.word "drw", .number 5, .comma, .number 0] := rfl

/-! ### Witnesses: each statement's hypotheses are met together, each clause at a boundary of its range -/

theorem wit_HuntingByteFollowsThePattern :
    (inPhase (.hunt 0)).phase = .hunt 0 ∧ (inPhase (.hunt 3)).phase = .hunt 3 := ⟨rfl, rfl⟩
theorem wit_LengthByteStartsBodyOrResyncs : (inPhase .len).phase = .len ∧
    (0x01 ≤ (0x01 : Byte).toNat ∧ (0x01 : Byte).toNat ≤ 0xFE) ∧ (0x01 ≤ (0xFE : Byte).toNat ∧ (0xFE : Byte).toNat ≤ 0xFE) ∧
    ¬ (0x01 ≤ (0x00 : Byte).toNat ∧ (0x00 : Byte).toNat ≤ 0xFE) ∧
    ¬ (0x01 ≤ (0xFF : Byte).toNat ∧ (0xFF : Byte).toNat ≤ 0xFE) := by decide
theorem wit_BodyByteAccumulatesThenCompletes :
    ([] : List Byte).length < (1 : Byte).toNat ∧ ([0xFF] : List Byte).length < (2 : Byte).toNat ∧
    ([0x9F] : List Byte).length = (1 : Byte).toNat ∧ csum 1 [0x9F] = 0xA0 ∧ csum 1 [0x9F] ≠ 0xA1 ∧
    (inPhase (.body 1 [0x9F])).phase = .body 1 [0x9F] ∧ (inPhase (.body 1 [])).phase = .body 1 [] := by decide
theorem wit_BodyByteAtTheLongestLength : (inPhase (.body 254 (List.replicate 253 0))).phase = .body 254 (List.replicate 253 0) ∧
    (List.replicate 253 (0 : Byte)).length < (254 : Byte).toNat ∧ (List.replicate 254 (0 : Byte)).length = (254 : Byte).toNat ∧
    csum 254 (List.replicate 254 0) = 254 := by decide +kernel
theorem wit_FrameRecordIsSplitFromTheBody : 1 ≤ (1 : Byte).toNat ∧ (1 : Byte).toNat ≤ 254 ∧
    ([0x9F] : List Byte).length = (1 : Byte).toNat ∧ (0xA0 : Byte) = csum 1 [0x9F] ∧
    (List.replicate 254 (0 : Byte)).length = (254 : Byte).toNat ∧ (254 : Byte) = csum 254 (List.replicate 254 0) := by decide +kernel
theorem wit_ReferenceFramesAreEmitted : (inPhase .len).phase = .len := rfl
theorem wit_MinimalFrameHasNoPadAndNoPayload : (inPhase .len).phase = .len := rfl
theorem wit_EachFrameAttemptHasOneOutcome : (inPhase .len).phase = .len ∧ 1 ≤ (1 : Byte).toNat ∧ (1 : Byte).toNat ≤ 254 ∧
    ([0x9F] : List Byte).length = (1 : Byte).toNat ∧ 1 ≤ (254 : Byte).toNat ∧ (254 : Byte).toNat ≤ 254 ∧
    (List.replicate 254 (0 : Byte)).length = (254 : Byte).toNat := by decide +kernel
theorem wit_ValidFrameIsDecodedFromItsWireImage : (inPhase .len).phase = .len ∧
    (⟨1, 0x9F, none, [], 0xA0⟩ : Frame).Valid ∧ (⟨3, 0xFE, some 1, [0x32], 0x34⟩ : Frame).Valid := by decide
theorem wit_WireImageIsTwoBytesLongerThanItsLength : (⟨254, 0, some 0, List.replicate 252 0, 254⟩ : Frame).Valid := by decide +kernel
theorem wit_BackToBackFramesAreAllDecodedWhenStaySynced :
    { inPhase .len with cfg := { cfg with staySynced := true } }.phase = .len ∧
    { inPhase .len with cfg := { cfg with staySynced := true } }.cfg.staySynced = true ∧
    ∀ f ∈ [(⟨1, 0x9F, none, [], 0xA0⟩ : Frame), ⟨2, 0xFF, some 0, [], 0x01⟩], f.Valid := by decide
theorem wit_BadChecksumDoesNotCorruptTheNextFrame : (inPhase .len).phase = .len ∧ 1 ≤ (2 : Byte).toNat ∧
    (2 : Byte).toNat ≤ 254 ∧ ([0xFF, 0x00] : List Byte).length = (2 : Byte).toNat ∧ csum 2 [0xFF, 0x00] ≠ 0x02 ∧
    ([0x33] : List Byte).length ≤ 252 := by decide
theorem wit_SumPreservingCorruptionPasses : (inPhase .len).phase = .len ∧ 1 ≤ (3 : Byte).toNat ∧ (3 : Byte).toNat ≤ 254 ∧
    ([0xFE, 0x00, 0x33] : List Byte).length = (3 : Byte).toNat ∧ ([0xFE, 0x01, 0x32] : List Byte).length = (3 : Byte).toNat ∧
    byteSum [0xFE, 0x00, 0x33] % 256 = byteSum [0xFE, 0x01, 0x32] % 256 := by decide
theorem wit_MatchIndexIsTheLongestPatternPrefix : (inPhase (.hunt 0)).phase = .hunt 0 ∧
    WfSync (inPhase (.hunt 0)).cfg.syncPattern ∧
    PatternFree (inPhase (.hunt 0)).cfg.syncPattern [0x00, 0xA5, 0x5A, 0xA5, 0x5A, 0xC3] := by decide
theorem wit_SynchronizesAtTheFirstOccurrenceOfThePattern : (inPhase (.hunt 0)).phase = .hunt 0 ∧
    WfSync (inPhase (.hunt 0)).cfg.syncPattern ∧
    PatternFree (inPhase (.hunt 0)).cfg.syncPattern [0xA5, 0xA5, 0x5A, 0xC3] ∧
    (inPhase (.hunt 0)).cfg.syncPattern.toList <:+ [0xA5, 0xA5, 0x5A, 0xC3] ++ [0x3C] := by decide
theorem wit_MarkerAfterNoiseIsTheFirstOccurrence : WfSync #v[0xA5, 0x5A, 0xC3, 0x3C] ∧ WfSync #v[0xA5, 0x5A, 0xC3, 0xA5] := by
  decide
theorem wit_AmbiguousPatternCanMissItsMarker :
    { inPhase (.hunt 0) with cfg := { cfg with syncPattern := #v[0xAA, 0xAA, 0xB0, 0xC0] } }.phase = .hunt 0 ∧
    { inPhase (.hunt 0) with cfg := { cfg with syncPattern := #v[0xAA, 0xAA, 0xB0, 0xC0] } }.cfg.syncPattern
      = #v[0xAA, 0xAA, 0xB0, 0xC0] := by decide
theorem wit_SynchronizedIsSet : ∃ t, exec (.rxb 0x3C) (inPhase (.hunt 3)) = .next t ∧
    (inPhase (.hunt 3)).phase.synchronized = false ∧ t.phase.synchronized = true := ⟨_, rfl, rfl, rfl⟩
theorem wit_SynchronizedIsClearedByBadLength : ∃ t, exec (.rxb 0xFF) (inPhase .len) = .next t ∧
    (inPhase .len).phase.synchronized = true ∧ t.phase.synchronized = false := ⟨_, rfl, rfl, rfl⟩
theorem wit_SynchronizedIsClearedByCompletion : ∃ t, exec (.rxb 0xA0) (inPhase (.body 1 [0x9F])) = .next t ∧
    (inPhase (.body 1 [0x9F])).phase.synchronized = true ∧ t.phase.synchronized = false := ⟨_, rfl, rfl, rfl⟩
theorem wit_SynchronizedIsClearedByBadChecksum : ∃ t, exec (.rxb 0xA1) (inPhase (.body 1 [0x9F])) = .next t ∧
    (inPhase (.body 1 [0x9F])).phase.synchronized = true ∧ t.phase.synchronized = false := ⟨_, rfl, rfl, rfl⟩
theorem wit_SynchronizedIsClearedByReset : ∃ t, exec .rst (inPhase .len) = .next t ∧
    (inPhase .len).phase.synchronized = true ∧ t.phase.synchronized = false := ⟨_, rfl, rfl, rfl⟩
theorem wit_TransmitFrameSendsTheEncodedFrame :
    (List.replicate 252 (0 : Byte)).length ≤ 252 ∧ 252 < (List.replicate 253 (0 : Byte)).length := by decide +kernel
theorem wit_SentFrameIsTheWireImageOfAValidRecord : ∃ t, exec (.txf 0xFF []) (inPhase .len) = .next t ∧
    t.tx = .sent [0x02, 0xFF, 0x00, 0x01] := ⟨_, rfl, by decide⟩
theorem wit_BuilderOutputIsAnEncodedFrame :
    (∃ t out, exec (.cre 0 0 0 0 0 0 0 []) (inPhase .len) = .next t ∧ t.tx = .sent out) ∧
    (∃ t out, exec (.chg 0x05 0x01 0x02 0x01 0x00 [0x41]) (inPhase .len) = .next t ∧ t.tx = .sent out) ∧
    (∃ t out, exec (.drw 5 1) (inPhase .len) = .next t ∧ t.tx = .sent out) ∧
    ∃ t out, exec (.clr 5 1) (inPhase .len) = .next t ∧ t.tx = .sent out :=
  ⟨⟨_, _, rfl, rfl⟩, ⟨_, _, rfl, rfl⟩, ⟨_, _, rfl, rfl⟩, _, _, rfl, rfl⟩
theorem wit_DecodeOfEncodeGivesTheFrameBack : (inPhase (.hunt 0)).phase = .hunt 0 ∧
    ([] : List Byte).length ≤ 252 ∧ (List.replicate 252 (0 : Byte)).length ≤ 252 := by decide +kernel
theorem wit_TransmitSideLeavesTheReceiveStateAlone :
    onTransmitSide (.drw 5 1) = true ∧ onTransmitSide (.cls ⟨1, 0x9F, none, [], 0xA0⟩) = true ∧
    (∃ t, exec (.drw 5 1) (inPhase .len) = .next t ∧ t.tx = .sent [0x04, 0x70, 0x00, 0x05, 0x01, 0x7A]) ∧
    ∃ t, exec (.cls ⟨1, 0x9F, none, [], 0xA0⟩) (inPhase .len) = .next t ∧ ∀ out, t.tx ≠ .sent out :=
  ⟨rfl, rfl, ⟨_, rfl, by decide⟩, _, rfl, fun _ h => TxResult.noConfusion h⟩
theorem wit_TransmitAndReceiveOperationsCommute : onTransmitSide (.txr [0x01]) = true := rfl
theorem wit_CreateRegionSendsThePositionalPayload :
    (List.replicate 241 (0 : Byte)).length ≤ 241 ∧ 241 < (List.replicate 242 (0 : Byte)).length := by decide +kernel
theorem wit_XPositionIsSplitInTheConfiguredOrder :
    cfg.xByteOrder = .hiFirst ∧ { cfg with xByteOrder := .loFirst }.xByteOrder = .loFirst := by decide
theorem wit_ChangeRegionSendsTheConfiguredLayout :
    List.replicate 252 (0 : Byte) = changeLayout (inPhase .len).cfg ⟨0x06, 0, 0, 0, 0, []⟩ ∧
    (List.replicate 252 (0 : Byte)).length ≤ 252 ∧
    List.replicate 253 (0 : Byte) = changeLayout (inPhase .len).cfg ⟨0x07, 0, 0, 0, 0, []⟩ ∧
    252 < (List.replicate 253 (0 : Byte)).length := ⟨rfl, by decide +kernel, rfl, by decide +kernel⟩
theorem wit_DistinctErrorCodesKeepTheirNames : (inPhase .len).cfg.WfCodes ∧
    (⟨3, 0xFE, some 0, [0x33], 0x34⟩ : Frame).command = 0xFE ∧
    (⟨3, 0xFE, some 0, [0x33], 0x34⟩ : Frame).payload[(inPhase .len).cfg.errCodeOffset]? = some 0x33 ∧
    (⟨3, 0xFE, some 0, [0x01], 0x02⟩ : Frame).payload[(inPhase .len).cfg.errCodeOffset]? = some (inPhase .len).cfg.codeInvalidCommand ∧
    (⟨3, 0xFE, some 0, [0x02], 0x03⟩ : Frame).payload[(inPhase .len).cfg.errCodeOffset]? = some (inPhase .len).cfg.codeInvalidArgs ∧
    (0x7E : Byte) ≠ 0x33 ∧ 0x7E ≠ (inPhase .len).cfg.codeInvalidCommand ∧ 0x7E ≠ (inPhase .len).cfg.codeInvalidArgs := by decide
theorem wit_DecodeOfEncodeIsTheOperation : (Instr.cls ⟨1, 0x9F, none, [], 0xA0⟩).wellFormed = true ∧
    (Instr.cre 1 2 3 0xFFFF 4 5 6 [7]).wellFormed = true := by decide
theorem wit_DecodedOperationIsWellFormed :
    decode { word := 0xC, lane0 := 0x9F } = .ok (.cls ⟨1, 0x9F, none, [], 0xA0⟩) := by decide
theorem wit_StepPerformsThePresentedOperation :
    { inPhase .len with port := [{ word := 0x3 }] }.port = { word := 0x3 } :: [] ∧ decode { word := 0x3 } = .ok .rst := by
  decide
theorem wit_ReservedSelectIsRefused : { inPhase .len with port := [{ word := 0xF }] }.port = { word := 0xF } :: [] ∧
    opSelect 0xF ∈ [0x4, 0x5, 0x6, 0x7, 0xD, 0xE, 0xF] ∧ opSelect 0x4 ∈ [0x4, 0x5, 0x6, 0x7, 0xD, 0xE, 0xF] := by decide
theorem wit_IdleStepHoldsTheState : State.reset.port = [] := rfl
theorem wit_PlacedWordIsPerformedNext : decodeTableWord 16 0xA500 = some (.rxb 0xA5) := by decide
theorem wit_PresentedOperationsArePerformedInOrder :
    ∀ i ∈ [Instr.rxb 0xA5, .cls ⟨1, 0x9F, none, [], 0xA0⟩], i.wellFormed = true := by decide
theorem wit_EveryStepKeepsThePhaseInvariant :
    { inPhase (.body 254 (List.replicate 254 0)) with port := [encode (.rxb 254)] }.Inv ∧
    (∃ t, step { inPhase (.body 254 (List.replicate 254 0)) with port := [encode (.rxb 254)] } = .next t) ∧
    { inPhase (.body 1 []) with port := [encode (.rxb 0)] }.Inv ∧
    ∃ t, step { inPhase (.body 1 []) with port := [encode (.rxb 0)] } = .next t :=
  ⟨⟨⟨by decide +kernel, by decide +kernel⟩, by decide +kernel⟩, ⟨_, rfl⟩, ⟨⟨by decide +kernel, by decide +kernel⟩, by decide +kernel⟩, _, rfl⟩
theorem wit_EveryStepEmitsOnlyValidFrames :
    { inPhase (.body 1 [0x9F]) with port := [encode (.rxb 0xA0)] }.Inv ∧
    { inPhase (.body 1 [0x9F]) with port := [encode (.rxb 0xA0)] }.EventsValid ∧
    ∃ t, step { inPhase (.body 1 [0x9F]) with port := [encode (.rxb 0xA0)] } = .next t ∧
      t.ev = [.frameOut ⟨1, 0x9F, none, [], 0xA0⟩] :=
  ⟨⟨⟨by decide, by decide⟩, by decide⟩, ⟨List.forall_mem_nil _, List.forall_mem_nil _⟩, _, rfl, rfl⟩
theorem wit_EachOperationEmitsAtMostOneEvent :
    (∃ t, exec (.rxb 0x00) (inPhase .len) = .next t ∧ t.ev ≠ []) ∧
    ∃ t, exec (.txr []) (inPhase .len) = .next t ∧ t.tx ≠ .nothing :=
  ⟨⟨_, rfl, by decide⟩, _, rfl, by decide⟩
theorem wit_NoStepWritesTheConfiguration : ∃ t, step { inPhase .len with port := [encode .rst] } = .next t := ⟨_, rfl⟩
theorem wit_OnlyThePhaseInfluencesLaterOperations :
    (inPhase .len).cfg = { inPhase .len with txStream := [0x01] }.cfg ∧
    (inPhase .len).phase = { inPhase .len with txStream := [0x01] }.phase := ⟨rfl, rfl⟩
theorem wit_PseudoOperationsExpandAsListed : (List.replicate 252 (0 : Byte)).length ≤ 252 := by decide +kernel

end Sys2Proof.Tests
end

/-! The receive state as the block's one memory: what each operation's result depends on (R37), and how the fact
"synchronized" changes (R28). First the two forms an operation on the transmit side can take and the meaning of `RXB` in
each phase; the two obligations are then read off from these. -/

namespace Sys2Proof.Machine

/-! ### What one operation does -/

/-- `RXB` and `RST` are the only operations on the receive side (R47). -/
theorem rxb_or_rst_or_onTransmitSide (i : Instr) : (∃ b, i = .rxb b) ∨ i = .rst ∨ onTransmitSide i = true := by
  cases i with
  | rxb b => exact .inl ⟨b, rfl⟩
  | rst => exact .inr (.inl rfl)
  | txf | txr | cre | chg | drw | clr | cls => exact .inr (.inr rfl)

/-- An operation on the transmit side ends in a transmit result or in an outcome, and the configuration is all of the
state that either one is computed from (R104, R115, R133). -/
theorem exec_of_onTransmitSide {i : Instr} (hi : onTransmitSide i = true) :
    (∃ r : Config → TxResult, ∀ s, exec i s = .next (s.transmit (r s.cfg))) ∨
      ∃ o : Config → ReplyOutcome, ∀ s, exec i s = .next (s.classified (o s.cfg)) := by
  cases i with
  | rxb | rst => simp [onTransmitSide] at hi
  | txf | txr | drw | clr => exact .inl ⟨fun _ => _, fun _ => rfl⟩
  | cre regionID sub0 sub1 xPos yPos width fontStyle text =>
    exact .inl ⟨fun cfg => if createTextMax < text.length then .reject .txTooLong else frameResult cmdCreateRegion
      (createPayload cfg regionID sub0 sub1 xPos yPos width fontStyle text), fun _ => rfl⟩
  | chg regionID sub0 sub1 visible style text =>
    exact .inl ⟨fun cfg => frameResult cmdChangeRegion
      (changeLayout cfg ⟨regionID, sub0, sub1, visible, style, text⟩), fun _ => rfl⟩
  | cls f => exact .inr ⟨fun cfg => classify cfg f, fun _ => rfl⟩

/-- The transmit side leaves the phase alone (R104, R115). -/
theorem phase_of_onTransmitSide {i : Instr} {s t : State} (hi : onTransmitSide i = true) (h : exec i s = .next t) :
    t.phase = s.phase := by
  rcases exec_of_onTransmitSide hi with ⟨r, hr⟩ | ⟨o, ho⟩
  · cases (hr s).symm.trans h
    rfl
  · cases (ho s).symm.trans h
    rfl

theorem exec_rst (s : State) : exec .rst s = .next s.restart := rfl

theorem exec_rxb_hunt {s : State} {mi : Fin 4} (hs : s.phase = .hunt mi) (b : Byte) :
    exec (.rxb b) s = .next (huntStep mi b s) := by
  simp only [exec, execRxb, hs]

theorem exec_rxb_len {s : State} (hs : s.phase = .len) (b : Byte) : exec (.rxb b) s = .next (lenStep b s) := by
  simp only [exec, execRxb, hs]

theorem exec_rxb_body {s : State} {len : Byte} {acc : List Byte} (hs : s.phase = .body len acc) (b : Byte) :
    exec (.rxb b) s = .next (bodyStep len acc b s) := by
  simp only [exec, execRxb, hs]

/-- A byte in a frame is buffered or completes the frame; which of the two, and with which body and checksum byte, does
not depend on the rest of the state (R91). The buffer may be longer than `INV` admits (note 7). -/
theorem bodyStep_cases (len : Byte) (acc : List Byte) (b : Byte) :
    (∀ s, bodyStep len acc b s = s.receiveTo (.body len (acc ++ [b])) []) ∨
      ∃ body chk, ∀ s, bodyStep len acc b s = completeFrame len body chk s := by
  by_cases hmore : (acc ++ [b]).length ≤ len.toNat
  · exact .inl fun s => by simp only [bodyStep, dif_pos hmore]
  · exact .inr ⟨(acc ++ [b]).take len.toNat, (acc ++ [b])[len.toNat]'(Nat.lt_of_not_le hmore),
      fun s => by simp only [bodyStep, dif_neg hmore]⟩

/-- A length byte that is not accepted is one of the two reserved values (R53). -/
theorem eq_zero_or_eq_ff_of_not_accepted {b : Byte} (hb : ¬ (1 ≤ b.toNat ∧ b.toNat ≤ 254)) : b = 0x00 ∨ b = 0xFF := by
  bv_omega

/-! ### The results of an operation depend on configuration and phase alone (R37) -/

/-- Two states agree in all that an operation hands on or reports: the phase, the events, the transmit result and the
outcome. -/
def SameResult (t t' : State) : Prop :=
  t.phase = t'.phase ∧ t.ev = t'.ev ∧ t.tx = t'.tx ∧ t.outcome = t'.outcome

theorem receiveTo_sameResult (s s' : State) (ph : Phase) (es : List RxEvent) :
    SameResult (s.receiveTo ph es) (s'.receiveTo ph es) := ⟨rfl, rfl, rfl, rfl⟩

theorem transmit_sameResult {s s' : State} (hphase : s.phase = s'.phase) (r : TxResult) :
    SameResult (s.transmit r) (s'.transmit r) := ⟨hphase, rfl, rfl, rfl⟩

theorem classified_sameResult {s s' : State} (hphase : s.phase = s'.phase) (o : ReplyOutcome) :
    SameResult (s.classified o) (s'.classified o) := ⟨hphase, rfl, rfl, rfl⟩

theorem huntStep_sameResult {s s' : State} (hcfg : s.cfg = s'.cfg) (mi : Fin 4) (b : Byte) :
    SameResult (huntStep mi b s) (huntStep mi b s') := by
  unfold huntStep
  rw [hcfg]
  split_ifs <;> exact receiveTo_sameResult ..

theorem lenStep_sameResult (s s' : State) (b : Byte) : SameResult (lenStep b s) (lenStep b s') := by
  unfold lenStep
  split_ifs <;> exact receiveTo_sameResult ..

theorem completeFrame_sameResult {s s' : State} (hcfg : s.cfg = s'.cfg) (len : Byte) (body : List Byte) (chk : Byte) :
    SameResult (completeFrame len body chk s) (completeFrame len body chk s') := by
  unfold completeFrame
  rw [hcfg]
  split_ifs <;> exact receiveTo_sameResult ..

theorem bodyStep_sameResult {s s' : State} (hcfg : s.cfg = s'.cfg) (len : Byte) (acc : List Byte) (b : Byte) :
    SameResult (bodyStep len acc b s) (bodyStep len acc b s') := by
  rcases bodyStep_cases len acc b with hmore | ⟨body, chk, hlast⟩
  · rw [hmore, hmore]
    exact receiveTo_sameResult ..
  · rw [hlast, hlast]
    exact completeFrame_sameResult hcfg ..

theorem exec_rxb_sameResult {s s' : State} (hcfg : s.cfg = s'.cfg) (hphase : s.phase = s'.phase) (b : Byte) :
    ∃ t t', exec (.rxb b) s = .next t ∧ exec (.rxb b) s' = .next t' ∧ SameResult t t' := by
  cases hs : s.phase with
  | hunt mi => exact ⟨_, _, exec_rxb_hunt hs b, exec_rxb_hunt (hphase ▸ hs) b, huntStep_sameResult hcfg mi b⟩
  | len => exact ⟨_, _, exec_rxb_len hs b, exec_rxb_len (hphase ▸ hs) b, lenStep_sameResult s s' b⟩
  | body len acc =>
    exact ⟨_, _, exec_rxb_body hs b, exec_rxb_body (hphase ▸ hs) b, bodyStep_sameResult hcfg len acc b⟩

theorem exec_sameResult (i : Instr) {s s' : State} (hcfg : s.cfg = s'.cfg) (hphase : s.phase = s'.phase) :
    ∃ t t', exec i s = .next t ∧ exec i s' = .next t' ∧ SameResult t t' := by
  rcases rxb_or_rst_or_onTransmitSide i with ⟨b, rfl⟩ | rfl | hi
  · exact exec_rxb_sameResult hcfg hphase b
  · exact ⟨_, _, exec_rst s, exec_rst s', receiveTo_sameResult ..⟩
  · rcases exec_of_onTransmitSide hi with ⟨r, hr⟩ | ⟨o, ho⟩
    · exact ⟨_, _, hr s, hr s', hcfg ▸ transmit_sameResult hphase _⟩
    · exact ⟨_, _, ho s, ho s', hcfg ▸ classified_sameResult hphase _⟩

/-- Settles O52: the port, the outputs and the streams, which the hypotheses leave free, enter no result. -/
theorem onlyThePhaseInfluencesLaterOperations : Obligations.OnlyThePhaseInfluencesLaterOperations := by
  intro i s s' hcfg hphase
  exact exec_sameResult i hcfg hphase

/-! ### How "synchronized" changes (R28) -/

@[simp] theorem Phase.synchronized_hunt (mi : Fin 4) : (Phase.hunt mi).synchronized = false := rfl
@[simp] theorem Phase.synchronized_len : Phase.len.synchronized = true := rfl
@[simp] theorem Phase.synchronized_body (len : Byte) (acc : List Byte) : (Phase.body len acc).synchronized = true := rfl

theorem Phase.synchronized_iff (phase : Phase) : phase.synchronized = true ↔ ∀ mi, phase ≠ .hunt mi := by
  cases phase <;> simp

/-- Hunting reaches a synchronized phase only with the last pattern byte (R79). -/
theorem huntStep_synchronizes {mi : Fin 4} {b : Byte} {s : State}
    (ht : (huntStep mi b s).phase.synchronized = true) :
    mi = 3 ∧ b = s.cfg.syncPattern[3] ∧ (huntStep mi b s).phase = .len := by
  rcases huntStep_cases mi b s with ⟨hb, rfl, h⟩ | ⟨-, -, h⟩ | ⟨-, -, h⟩ | ⟨-, -, h⟩
  · exact ⟨rfl, hb, by rw [h]; rfl⟩
  all_goals simp [h] at ht

/-- The length byte loses synchronization only by being an invalid one (R90). -/
theorem lenStep_desynchronizes {b : Byte} {s : State} (ht : (lenStep b s).phase.synchronized = false) :
    (lenStep b s).phase = .hunt 0 ∧ (b = 0x00 ∨ b = 0xFF) ∧ (lenStep b s).ev = [.resyncBadLength b] := by
  rcases lenStep_cases b s with ⟨-, h⟩ | ⟨hb, h⟩
  · simp [h] at ht
  · rw [h]
    exact ⟨rfl, eq_zero_or_eq_ff_of_not_accepted hb, rfl⟩

/-- A completion loses synchronization by a checksum mismatch, or by a frame without `STAY_SYNCED` (R92, R93). -/
theorem completeFrame_desynchronizes {len : Byte} {body : List Byte} {chk : Byte} {s : State}
    (ht : (completeFrame len body chk s).phase.synchronized = false) :
    (completeFrame len body chk s).phase = .hunt 0 ∧
      ((csum len body ≠ chk ∧
          (completeFrame len body chk s).ev = [.resyncBadChecksum len (csum len body) chk]) ∨
        (s.cfg.staySynced = false ∧ (completeFrame len body chk s).ev = [.frameOut (mkFrame len body chk)])) := by
  rcases completeFrame_cases len body chk s with ⟨-, h⟩ | ⟨hchk, h⟩
  · cases hstay : s.cfg.staySynced with
    | true => simp [h, hstay] at ht
    | false => simp [h, hstay]
  · rw [h]
    exact ⟨rfl, .inl ⟨hchk, rfl⟩⟩

/-- A byte in a frame loses synchronization only as the frame's completion does (R91). -/
theorem bodyStep_desynchronizes {len : Byte} {acc : List Byte} {b : Byte} {s : State}
    (ht : (bodyStep len acc b s).phase.synchronized = false) :
    (bodyStep len acc b s).phase = .hunt 0 ∧
      ((∃ computed received, computed ≠ received ∧
          (bodyStep len acc b s).ev = [.resyncBadChecksum len computed received]) ∨
        ∃ f, s.cfg.staySynced = false ∧ (bodyStep len acc b s).ev = [.frameOut f]) := by
  rcases bodyStep_cases len acc b with hmore | ⟨body, chk, hlast⟩
  · simp [hmore] at ht
  · rw [hlast] at ht ⊢
    obtain ⟨hphase, hbad | hframe⟩ := completeFrame_desynchronizes ht
    · exact ⟨hphase, .inl ⟨_, _, hbad⟩⟩
    · exact ⟨hphase, .inr ⟨_, hframe⟩⟩

theorem exec_synchronizes {i : Instr} {s t : State} (h : exec i s = .next t) (hs : s.phase.synchronized = false)
    (ht : t.phase.synchronized = true) : s.phase = .hunt 3 ∧ i = .rxb s.cfg.syncPattern[3] ∧ t.phase = .len := by
  rcases rxb_or_rst_or_onTransmitSide i with ⟨b, rfl⟩ | rfl | hi
  · cases hp : s.phase with
    | hunt mi =>
      cases (exec_rxb_hunt hp b).symm.trans h
      obtain ⟨rfl, rfl, hlen⟩ := huntStep_synchronizes ht
      exact ⟨rfl, rfl, hlen⟩
    | len | body => simp [hp] at hs
  · cases (exec_rst s).symm.trans h
    simp at ht
  · simp [phase_of_onTransmitSide hi h, hs] at ht

theorem exec_desynchronizes {i : Instr} {s t : State} (h : exec i s = .next t) (hs : s.phase.synchronized = true)
    (ht : t.phase.synchronized = false) :
    t.phase = .hunt 0 ∧
      (i = .rst ∨
        (∃ b, i = .rxb b ∧ s.phase = .len ∧ (b = 0x00 ∨ b = 0xFF) ∧ t.ev = [.resyncBadLength b]) ∨
        (∃ b len acc computed received, i = .rxb b ∧ s.phase = .body len acc ∧ computed ≠ received ∧
          t.ev = [.resyncBadChecksum len computed received]) ∨
        (∃ b len acc f, i = .rxb b ∧ s.phase = .body len acc ∧ s.cfg.staySynced = false ∧ t.ev = [.frameOut f])) := by
  rcases rxb_or_rst_or_onTransmitSide i with ⟨b, rfl⟩ | rfl | hi
  · cases hp : s.phase with
    | hunt mi => simp [hp] at hs
    | len =>
      cases (exec_rxb_len hp b).symm.trans h
      obtain ⟨hphase, hb, hev⟩ := lenStep_desynchronizes ht
      exact ⟨hphase, .inr (.inl ⟨b, rfl, rfl, hb, hev⟩)⟩
    | body len acc =>
      cases (exec_rxb_body hp b).symm.trans h
      obtain ⟨hphase, ⟨computed, received, hne, hev⟩ | ⟨f, hstay, hev⟩⟩ := bodyStep_desynchronizes ht
      · exact ⟨hphase, .inr (.inr (.inl ⟨b, len, acc, computed, received, rfl, rfl, hne, hev⟩))⟩
      · exact ⟨hphase, .inr (.inr (.inr ⟨b, len, acc, f, rfl, rfl, hstay, hev⟩))⟩
  · cases (exec_rst s).symm.trans h
    exact ⟨rfl, .inl rfl⟩
  · simp [phase_of_onTransmitSide hi h, hs] at ht

/-- Settles O18: only hunting can set the fact, and only the other two phases or a reset can clear it. -/
theorem synchronizedChangesOnlyAsTheRulesSay : Obligations.SynchronizedChangesOnlyAsTheRulesSay :=
  ⟨Phase.synchronized_iff, fun _ _ _ h => ⟨exec_synchronizes h, exec_desynchronizes h⟩⟩

end Sys2Proof.Machine

/-! What the encoding family asserts: the operand bytes of a presented operation (R70), the refusal of the reserved
op-selects (R73), the expansions of the pseudo-operations (R72), and that every step emits only valid frames (R66).
The last is the long one: a record split from a full body with a matching checksum is valid, `INV` bounds the buffer so
that nothing else is ever completed, and so each operation emits valid events alone. -/

namespace Sys2Proof.Machine

/-! ### A frame made of a full body is valid (R66, R94) -/

/-- The record of a minimal frame is valid when its checksum matches (R97). -/
theorem mkFrame_minimal_valid (command : Byte) : (mkFrame 1 [command] (csum 1 [command])).Valid := by
  have hlen : lenMin ≤ (1 : Byte).toNat ∧ (1 : Byte).toNat ≤ lenMax := by decide
  rw [mkFrame_minimal]
  exact ⟨hlen, iff_of_true rfl rfl, rfl, rfl⟩

/-- The record of a frame with a pad is valid when its length byte is in range and its checksum matches. -/
theorem mkFrame_padded_valid {len : Byte} (command pad : Byte) (payload : List Byte) (hmax : len.toNat ≤ 254)
    (hlen : len.toNat = payload.length + 2) :
    (mkFrame len (command :: pad :: payload) (csum len (command :: pad :: payload))).Valid := by
  have hne : len ≠ 1 := by rintro rfl; simp at hlen
  rw [mkFrame_padded len command pad payload _ hlen]
  refine ⟨⟨?_, hmax⟩, iff_of_false nofun hne, ?_, rfl⟩
  · simp [lenMin, hlen]
  · simp [hlen]

/-- The spec's inference at R94: with the checksum of its own body, the record of a full body is valid. -/
theorem mkFrame_valid {len : Byte} {body : List Byte} (hmin : 1 ≤ len.toNat) (hmax : len.toNat ≤ 254)
    (hbody : body.length = len.toNat) : (mkFrame len body (csum len body)).Valid := by
  match body, hbody with
  | [], hbody => exact absurd hmin (by simp [← hbody])
  | [command], hbody =>
    obtain rfl : len = 1 := BitVec.eq_of_toNat_eq hbody.symm
    exact mkFrame_minimal_valid command
  | command :: pad :: payload, hbody => exact mkFrame_padded_valid command pad payload hmax hbody.symm

/-! ### What each operation emits (R31, R66) -/

/-- From `s` to `t` the receive-event output grows at its end by the events of `t`, all of them valid. -/
def EmitsValid (s t : State) : Prop := t.rxStream = s.rxStream ++ t.ev ∧ ∀ e ∈ t.ev, e.Valid

theorem receiveTo_emitsValid (s : State) (ph : Phase) {es : List RxEvent} (hes : ∀ e ∈ es, e.Valid) :
    EmitsValid s (s.receiveTo ph es) := ⟨rfl, hes⟩

theorem receiveTo_nil_emitsValid (s : State) (ph : Phase) : EmitsValid s (s.receiveTo ph []) :=
  receiveTo_emitsValid s ph (List.forall_mem_nil _)

theorem emitFrame_emitsValid (s : State) (ph : Phase) {f : Frame} (hf : f.Valid) : EmitsValid s (s.emitFrame ph f) :=
  receiveTo_emitsValid s ph (List.forall_mem_singleton.2 hf)

/-- A framing error is reported by an event that carries no frame. -/
theorem resync_emitsValid (s : State) {e : RxEvent} (he : e.Valid) : EmitsValid s (s.resync e) :=
  receiveTo_emitsValid s _ (List.forall_mem_singleton.2 he)

theorem transmit_emitsValid (s : State) (r : TxResult) : EmitsValid s (s.transmit r) :=
  ⟨(List.append_nil _).symm, List.forall_mem_nil _⟩

theorem classified_emitsValid (s : State) (o : ReplyOutcome) : EmitsValid s (s.classified o) :=
  ⟨(List.append_nil _).symm, List.forall_mem_nil _⟩

theorem huntStep_emitsValid (mi : Fin 4) (b : Byte) (s : State) : EmitsValid s (huntStep mi b s) := by
  rcases huntStep_cases mi b s with ⟨-, -, h⟩ | ⟨-, -, h⟩ | ⟨-, -, h⟩ | ⟨-, -, h⟩ <;> rw [h] <;>
    exact receiveTo_nil_emitsValid ..

theorem lenStep_emitsValid (b : Byte) (s : State) : EmitsValid s (lenStep b s) := by
  rcases lenStep_cases b s with ⟨-, h⟩ | ⟨-, h⟩ <;> rw [h]
  · exact receiveTo_nil_emitsValid ..
  · exact resync_emitsValid s trivial

/-- A completion of a full body emits a frame only with the checksum that makes it valid (R92, R93). -/
theorem completeFrame_emitsValid {len : Byte} {body : List Byte} (hmin : 1 ≤ len.toNat) (hmax : len.toNat ≤ 254)
    (hbody : body.length = len.toNat) (chk : Byte) (s : State) : EmitsValid s (completeFrame len body chk s) := by
  rcases completeFrame_cases len body chk s with ⟨rfl, h⟩ | ⟨-, h⟩ <;> rw [h]
  · exact emitFrame_emitsValid s _ (mkFrame_valid hmin hmax hbody)
  · exact resync_emitsValid s trivial

/-- `INV` leaves the buffer short of the length byte, or exactly full (R26, R91). -/
theorem bodyStep_emitsValid {len : Byte} {acc : List Byte} (hinv : (Phase.body len acc).Inv) (b : Byte) (s : State) :
    EmitsValid s (bodyStep len acc b s) := by
  obtain ⟨⟨hmin, hmax⟩, hacc⟩ := hinv
  rcases Nat.lt_or_eq_of_le hacc with hmore | hfull
  · rw [bodyStep_more len acc b s hmore]
    exact receiveTo_nil_emitsValid ..
  · rw [bodyStep_last len acc b s hfull]
    exact completeFrame_emitsValid hmin hmax hfull b s

theorem exec_rxb_emitsValid {s t : State} {b : Byte} (hinv : s.Inv) (h : exec (.rxb b) s = .next t) :
    EmitsValid s t := by
  cases hs : s.phase with
  | hunt mi =>
    cases (exec_rxb_hunt hs b).symm.trans h
    exact huntStep_emitsValid mi b s
  | len =>
    cases (exec_rxb_len hs b).symm.trans h
    exact lenStep_emitsValid b s
  | body len acc =>
    cases (exec_rxb_body hs b).symm.trans h
    exact bodyStep_emitsValid (hs ▸ hinv) b s

theorem exec_emitsValid {i : Instr} {s t : State} (hinv : s.Inv) (h : exec i s = .next t) : EmitsValid s t := by
  rcases rxb_or_rst_or_onTransmitSide i with ⟨b, rfl⟩ | rfl | hi
  · exact exec_rxb_emitsValid hinv h
  · cases (exec_rst s).symm.trans h
    exact receiveTo_nil_emitsValid ..
  · rcases exec_of_onTransmitSide hi with ⟨r, hr⟩ | ⟨o, ho⟩
    · cases (hr s).symm.trans h
      exact transmit_emitsValid ..
    · cases (ho s).symm.trans h
      exact classified_emitsValid ..

/-- What was valid before stays, and what is added is valid. -/
theorem EmitsValid.eventsValid {s t : State} (h : EmitsValid s t) (hs : s.EventsValid) : t.EventsValid := by
  obtain ⟨hstream, hev⟩ := h
  obtain ⟨-, hold⟩ := hs
  exact ⟨hev, hstream ▸ List.forall_mem_append.2 ⟨hold, hev⟩⟩

/-- Settles O49: an idle step holds the state, and every other step is one operation, which emits valid events alone. -/
theorem everyStepEmitsOnlyValidFrames : Obligations.EveryStepEmitsOnlyValidFrames := by
  intro s t hinv hvalid hstep
  rcases step_next_cases hstep with ⟨-, rfl⟩ | ⟨p, rest, i, -, -, hexec⟩
  · exact ⟨hvalid, [], (List.append_nil _).symm⟩
  · have hemits : EmitsValid { s with port := rest } t := exec_emitsValid hinv hexec
    exact ⟨hemits.eventsValid hvalid, t.ev, hemits.1⟩

/-! ### The two bytes of `xPos` (R70) -/

theorem halfHi_toNat (x : Half) : (halfHi x).toNat = x.toNat / 256 := by
  simp only [halfHi, BitVec.extractLsb'_toNat, Nat.shiftRight_eq_div_pow]
  omega

theorem halfLo_toNat (x : Half) : (halfLo x).toNat = x.toNat % 256 := by
  simp [halfLo]

theorem xBytes_hiFirst {cfg : Config} (h : cfg.xByteOrder = .hiFirst) (xPos : Half) :
    xBytes cfg xPos = [halfHi xPos, halfLo xPos] := by
  simp only [xBytes, h]

theorem xBytes_loFirst {cfg : Config} (h : cfg.xByteOrder = .loFirst) (xPos : Half) :
    xBytes cfg xPos = [halfLo xPos, halfHi xPos] := by
  simp only [xBytes, h]

/-- Settles O28: the split in each order, then each byte as a number. -/
theorem xPositionIsSplitInTheConfiguredOrder : Obligations.XPositionIsSplitInTheConfiguredOrder := by
  refine fun cfg xPos => ⟨fun h => ?_, fun h => ?_⟩
  · simp [xBytes_hiFirst h, halfHi_toNat, halfLo_toNat]
  · simp [xBytes_loFirst h, halfHi_toNat, halfLo_toNat]

/-! ### The reserved op-selects (R73) -/

theorem decode_reserved {p : PortOp} (h : opSelect p.word ∈ [0x4, 0x5, 0x6, 0x7, 0xD, 0xE, 0xF]) :
    decode p = .error (.reservedOp (opSelect p.word)) := by
  simp only [List.mem_cons, List.not_mem_nil, or_false] at h
  rcases h with h | h | h | h | h | h | h <;> simp only [decode, h]

/-- A presented operation without a meaning is what a step refuses (R69, R73). -/
theorem step_of_decode_error {s : State} {p : PortOp} {rest : List PortOp} {e : DecodeError}
    (hport : s.port = p :: rest) (hdecode : decode p = .error e) : step s = .refused (refusalOf e) := by
  simp only [step, State.takeOp, hport, hdecode]

/-- Settles O42: the decoder gives the select no meaning, and the step refuses what has none. -/
theorem reservedSelectIsRefused : Obligations.ReservedSelectIsRefused :=
  fun _ _ _ hport hselect => step_of_decode_error hport (decode_reserved hselect)

/-! ### The pseudo-operations (R72) -/

theorem syncPattern_toList (P : SyncPattern) : P.toList = [P[0], P[1], P[2], P[3]] := by
  refine List.ext_getElem (by simp) fun k hk _ => ?_
  have hk4 : k < 4 := by simpa using hk
  interval_cases k <;> rfl

theorem rxsync_eq (cfg : Config) : rxsync cfg =
    [.rxb cfg.syncPattern[0], .rxb cfg.syncPattern[1], .rxb cfg.syncPattern[2], .rxb cfg.syncPattern[3]] := by
  simp only [rxsync, rx, syncPattern_toList, List.map_cons, List.map_nil]

/-- A payload that fits is received as the frame `TXF` sends for it. -/
theorem rxframe_of_fits (cfg : Config) (cmd : Byte) {payload : List Byte} (h : payload.length ≤ 252) :
    rxframe cfg cmd payload = rxsync cfg ++ rx (encodeFrame cmd payload) := by
  rcases frameResult_cases cmd payload with ⟨-, hsent⟩ | ⟨hlong, -⟩
  · simp only [rxframe, hsent, TxResult.bytes]
  · omega

/-- Settles O54: `rxsync` and `rxframe` by the two equations above, the other lines as they are defined. -/
theorem pseudoOperationsExpandAsListed : Obligations.PseudoOperationsExpandAsListed := by
  refine fun cfg events => ⟨fun _ => rfl, ?rxsync, ?rxframe, fun _ => rfl, fun _ => rfl,
    fun _ _ _ _ _ _ _ => rfl, fun _ _ _ _ _ => rfl⟩
  case rxsync => exact congrArg some (rxsync_eq cfg)
  case rxframe =>
    intro cmd payload hfits
    rw [← rxsync_eq]
    exact congrArg some (rxframe_of_fits cfg cmd hfits)

end Sys2Proof.Machine

/-! The synchronizer (R78 to R81): every byte while hunting is one receive step without events, into a phase that only
the pattern, the match index and the byte decide. -/

namespace Sys2Proof.Machine

/-- The phase after byte `b` in `HUNT mi` with pattern `P` (R78 to R81). -/
def huntNext (P : SyncPattern) (mi : Fin 4) (b : Byte) : Phase :=
  if b = P[mi] then (if mi = 3 then .len else .hunt (mi + 1))
  else if b = P[0] then .hunt 1
  else .hunt 0

/-- The four cases of the synchronizer differ in the phase alone. -/
theorem huntStep_eq_receiveTo (mi : Fin 4) (b : Byte) (s : State) :
    huntStep mi b s = s.receiveTo (huntNext s.cfg.syncPattern mi b) [] := by
  rcases huntStep_cases mi b s with
    ⟨hexpected, hlast, h⟩ | ⟨hexpected, hmore, h⟩ | ⟨hbreak, hfirst, h⟩ | ⟨hbreak, hother, h⟩
  case inl => rw [h, huntNext, if_pos hexpected, if_pos hlast]
  case inr.inl => rw [h, huntNext, if_pos hexpected, if_neg hmore]
  case inr.inr.inl => rw [h, huntNext, if_neg hbreak, if_pos hfirst]
  case inr.inr.inr => rw [h, huntNext, if_neg hbreak, if_neg hother]

/-- A receive step that emits no event leaves the receive-event output as it was. -/
theorem receiveTo_nil (s : State) (ph : Phase) :
    s.receiveTo ph [] = { s with phase := ph, ev := [], tx := .nothing, outcome := none } := by
  simp only [State.receiveTo, List.append_nil]

/-- `RXB` is op-select 0x0, whatever its operand byte (R68). -/
theorem opSelect_encode_rxb (b : Byte) : opSelect (encode (.rxb b)).word = 0x0 := rfl

/-- Settles O1: the byte reaches the synchronizer, which changes the phase to `huntNext` and emits nothing. -/
theorem huntingByteFollowsThePattern : Obligations.HuntingByteFollowsThePattern := by
  refine fun s mi b hs => ⟨opSelect_encode_rxb b, ?_⟩
  calc exec (.rxb b) s = .next (huntStep mi b s) := exec_rxb_hunt hs b
    _ = .next (s.receiveTo (huntNext s.cfg.syncPattern mi b) []) := by rw [huntStep_eq_receiveTo]
    _ = _ := congrArg Host.Outcome.next (receiveTo_nil ..)

end Sys2Proof.Machine

/-! The frame decoder (R88 to R97, R103): the length byte, the body bytes and the checksum byte each have an equation
for the state they lead to. A whole frame attempt then leads from `LEN` to one completion, and the worked examples and
the minimal frame are completions whose checksum matches. -/

namespace Sys2Proof.Machine

/-! ### One byte of a frame -/

theorem lenStep_of_accepted {b : Byte} (hb : 1 ≤ b.toNat ∧ b.toNat ≤ 254) (s : State) :
    lenStep b s = s.receiveTo (.body b []) [] := by
  rcases lenStep_cases b s with ⟨-, h⟩ | ⟨hrejected, -⟩
  · exact h
  · exact absurd hb hrejected

/-- The two reserved values are framing errors (R90). -/
theorem lenStep_of_reserved {b : Byte} (hb : b = 0x00 ∨ b = 0xFF) (s : State) :
    lenStep b s = s.resync (.resyncBadLength b) := by
  rcases lenStep_cases b s with ⟨haccepted, -⟩ | ⟨-, h⟩
  · rcases hb with rfl | rfl <;> simp at haccepted
  · exact h

theorem completeFrame_of_match {len : Byte} {body : List Byte} {chk : Byte} (hchk : csum len body = chk) (s : State) :
    completeFrame len body chk s =
      s.emitFrame (if s.cfg.staySynced then .len else .hunt 0) (mkFrame len body chk) := by
  rcases completeFrame_cases len body chk s with ⟨-, h⟩ | ⟨hbad, -⟩
  · exact h
  · exact absurd hchk hbad

theorem completeFrame_of_mismatch {len : Byte} {body : List Byte} {chk : Byte} (hchk : csum len body ≠ chk)
    (s : State) : completeFrame len body chk s = s.resync (.resyncBadChecksum len (csum len body) chk) := by
  rcases completeFrame_cases len body chk s with ⟨hgood, -⟩ | ⟨-, h⟩
  · exact absurd hgood hchk
  · exact h

theorem exec_rxb_len_of_accepted {s : State} (hs : s.phase = .len) {b : Byte} (hb : 1 ≤ b.toNat ∧ b.toNat ≤ 254) :
    exec (.rxb b) s = .next (s.receiveTo (.body b []) []) := by
  rw [exec_rxb_len hs, lenStep_of_accepted hb]

theorem exec_rxb_len_of_reserved {s : State} (hs : s.phase = .len) {b : Byte} (hb : b = 0x00 ∨ b = 0xFF) :
    exec (.rxb b) s = .next (s.resync (.resyncBadLength b)) := by
  rw [exec_rxb_len hs, lenStep_of_reserved hb]

theorem exec_rxb_body_of_lt {s : State} {len : Byte} {acc : List Byte} (hs : s.phase = .body len acc)
    (hmore : acc.length < len.toNat) (b : Byte) :
    exec (.rxb b) s = .next (s.receiveTo (.body len (acc ++ [b])) []) := by
  rw [exec_rxb_body hs, bodyStep_more len acc b s hmore]

theorem exec_rxb_body_of_full {s : State} {len : Byte} {acc : List Byte} (hs : s.phase = .body len acc)
    (hfull : acc.length = len.toNat) (chk : Byte) : exec (.rxb chk) s = .next (completeFrame len acc chk s) := by
  rw [exec_rxb_body hs, bodyStep_last len acc chk s hfull]

/-- Settles O2: an accepted length byte opens an empty buffer and a reserved one resyncs. -/
theorem lengthByteStartsBodyOrResyncs : Obligations.LengthByteStartsBodyOrResyncs := by
  refine fun s b hs => ⟨opSelect_encode_rxb b, fun haccepted => ?_, fun hreserved => ?_⟩
  · rw [exec_rxb_len_of_accepted hs haccepted, receiveTo_nil]
  · exact exec_rxb_len_of_reserved hs hreserved

/-- Settles O3: below `len` buffered bytes the byte is data; at `len` it completes the frame, which a matching checksum
emits and any other discards. -/
theorem bodyByteAccumulatesThenCompletes : Obligations.BodyByteAccumulatesThenCompletes := by
  refine fun s len acc b hs =>
    ⟨opSelect_encode_rxb b, fun hmore => ?more, fun hfull hgood => ?good, fun hfull hbad => ?bad⟩
  case more => rw [exec_rxb_body_of_lt hs hmore, receiveTo_nil]
  case good =>
    rw [exec_rxb_body_of_full hs hfull, completeFrame_of_match hgood]
    rfl
  case bad =>
    rw [exec_rxb_body_of_full hs hfull, completeFrame_of_mismatch hbad]
    rfl

/-! ### The checksum (R95) -/

theorem csum_toNat (len : Byte) (body : List Byte) : (csum len body).toNat = (len.toNat + byteSum body) % 256 := by
  rw [csum, sum8_toNat, byteSum_cons]

theorem encodeFrame_getLast? (cmd : Byte) (payload : List Byte) : (encodeFrame cmd payload).getLast? =
    some (csum (lo8 (2 + payload.length)) (cmd :: padByte :: payload)) := by
  rw [encodeFrame_eq, List.getLast?_concat]

/-- Settles O4: validator and encoder call the one function `csum`, whose value is the sum narrowed to a byte. -/
theorem checksumIsTheLowByteOfTheSum : Obligations.ChecksumIsTheLowByteOfTheSum :=
  ⟨csum_toNat, encodeFrame_getLast?⟩

/-- The checksum of a minimal frame (R97). -/
theorem csum_minimal (command : Byte) : csum 1 [command] = lo8 (1 + command.toNat) := by
  apply BitVec.eq_of_toNat_eq
  simp [csum_toNat]

/-! ### A whole frame attempt (R91, R99) -/

theorem rx_cons (b : Byte) (bytes : List Byte) : rx (b :: bytes) = .rxb b :: rx bytes := rfl

theorem rx_append (bytes bytes' : List Byte) : rx (bytes ++ bytes') = rx bytes ++ rx bytes' := List.map_append

/-- A receive step without events is forgotten by the next one: only its phase was new. -/
theorem receiveTo_receiveTo (s : State) (ph ph' : Phase) (es : List RxEvent) :
    (s.receiveTo ph []).receiveTo ph' es = s.receiveTo ph' es := by
  simp only [State.receiveTo, List.append_nil]

theorem completeFrame_receiveTo (len : Byte) (body : List Byte) (chk : Byte) (s : State) (ph : Phase) :
    completeFrame len body chk (s.receiveTo ph []) = completeFrame len body chk s := by
  rcases completeFrame_cases len body chk s with ⟨hgood, h⟩ | ⟨hbad, h⟩
  · rw [h, completeFrame_of_match hgood]
    exact receiveTo_receiveTo ..
  · rw [h, completeFrame_of_mismatch hbad]
    exact receiveTo_receiveTo ..

/-- Bytes that fit the frame are buffered in order. -/
theorem performAll_rx_body (s : State) (len : Byte) (acc bytes : List Byte)
    (hfit : acc.length + bytes.length ≤ len.toNat) :
    performAll (rx bytes) (s.receiveTo (.body len acc) []) = .next (s.receiveTo (.body len (acc ++ bytes)) []) := by
  induction bytes generalizing acc with
  | nil => rw [List.append_nil]; rfl
  | cons b bytes ih =>
    rw [List.length_cons] at hfit
    have hmore : acc.length < len.toNat := by omega
    have hrest : (acc ++ [b]).length + bytes.length ≤ len.toNat := by
      rw [List.length_append, List.length_singleton]
      omega
    rw [rx_cons, performAll_cons (exec_rxb_body_of_lt rfl hmore b), receiveTo_receiveTo, ih _ hrest,
      List.append_assoc, List.singleton_append]

/-- An accepted length byte and up to that many bytes leave exactly those bytes buffered. -/
theorem performAll_rx_len_body {s : State} (hs : s.phase = .len) {len : Byte}
    (hlen : 1 ≤ len.toNat ∧ len.toNat ≤ 254) {bytes : List Byte} (hfit : bytes.length ≤ len.toNat) :
    performAll (rx (len :: bytes)) s = .next (s.receiveTo (.body len bytes) []) := by
  rw [rx_cons, performAll_cons (exec_rxb_len_of_accepted hs hlen)]
  exact performAll_rx_body s len [] bytes (by simpa using hfit)

/-- From `LEN`, a length byte, its body and one byte more come to the completion of that frame. -/
theorem performAll_rx_frame {s : State} (hs : s.phase = .len) {len : Byte} (hlen : 1 ≤ len.toNat ∧ len.toNat ≤ 254)
    {body : List Byte} (hbody : body.length = len.toNat) (chk : Byte) :
    performAll (rx (len :: (body ++ [chk]))) s = .next (completeFrame len body chk s) := by
  have hbuffered : performAll (rx (len :: body)) s = .next (s.receiveTo (.body len body) []) :=
    performAll_rx_len_body hs hlen hbody.le
  calc performAll (rx (len :: (body ++ [chk]))) s
      = performAll (rx (len :: body) ++ rx [chk]) s := by rw [← rx_append, List.cons_append]
    _ = performAll (rx [chk]) (s.receiveTo (.body len body) []) := performAll_append hbuffered _
    _ = .next (completeFrame len body chk (s.receiveTo (.body len body) [])) :=
        performAll_cons (exec_rxb_body_of_full rfl hbody chk) []
    _ = .next (completeFrame len body chk s) := by rw [completeFrame_receiveTo]

/-- With the matching checksum the record of the frame is the one event (R92). -/
theorem rx_frame_emits {s : State} (hs : s.phase = .len) {len : Byte} (hlen : 1 ≤ len.toNat ∧ len.toNat ≤ 254)
    {body : List Byte} (hbody : body.length = len.toNat) {chk : Byte} (hchk : csum len body = chk) :
    ∃ t, performAll (rx (len :: (body ++ [chk]))) s = .next t ∧
      t.rxStream = s.rxStream ++ [.frameOut (mkFrame len body chk)] := by
  refine ⟨_, performAll_rx_frame hs hlen hbody chk, ?_⟩
  rw [completeFrame_of_match hchk, State.emitFrame_rxStream]

/-- A frame with a pad is emitted with its fields where R94 finds them. -/
theorem rx_padded_frame_emits {s : State} (hs : s.phase = .len) {len command pad : Byte} {payload : List Byte}
    {chk : Byte} (hmax : len.toNat ≤ 254) (hlen : len.toNat = payload.length + 2)
    (hchk : csum len (command :: pad :: payload) = chk) :
    ∃ t, performAll (rx (len :: command :: pad :: (payload ++ [chk]))) s = .next t ∧
      t.rxStream = s.rxStream ++ [.frameOut ⟨len, command, some pad, payload, chk⟩] := by
  rw [← mkFrame_padded len command pad payload chk hlen]
  exact rx_frame_emits (body := command :: pad :: payload) hs ⟨by omega, hmax⟩ hlen.symm hchk

/-- Settles O6: the two frames are complete with a matching checksum, and the four length bytes are the boundaries of
the accepted class. -/
theorem referenceFramesAreEmitted : Obligations.ReferenceFramesAreEmitted := by
  refine fun s hs => ⟨?acknowledgment, ?error, fun b hreserved => ?reserved, fun b hboundary => ?accepted⟩
  case acknowledgment => exact rx_padded_frame_emits (payload := []) hs (by decide) rfl (by decide)
  case error => exact rx_padded_frame_emits (payload := [0x33]) hs (by decide) rfl (by decide)
  case reserved => exact ⟨_, exec_rxb_len_of_reserved hs hreserved, rfl⟩
  case accepted =>
    have haccepted : 1 ≤ b.toNat ∧ b.toNat ≤ 254 := by rcases hboundary with rfl | rfl <;> decide
    exact ⟨_, exec_rxb_len_of_accepted hs haccepted, rfl, rfl⟩

/-- Settles O7: the command byte alone is the full body of length 1. -/
theorem minimalFrameHasNoPadAndNoPayload : Obligations.MinimalFrameHasNoPadAndNoPayload := by
  intro s command hs
  rw [← mkFrame_minimal]
  exact rx_frame_emits hs (by decide) (body := [command]) rfl (csum_minimal command)

end Sys2Proof.Machine

/-! The encode path (R104 to R111). What an operation on the transmit side reads and writes follows from the two forms
such an operation can take; `TXF` and `TXR` are one of the two forms, with the result that R105, R106 and R108 give. -/

namespace Sys2Proof.Machine

/-! ### The receive state is neither read nor written (R104, R115) -/

/-- From `s` to `t` no event is emitted, the transmit output grows at its end by the bytes of the result of `t`, and
the receive state, the receive-event output, the configuration and the port stay as they were. -/
def WritesTransmitOnly (s t : State) : Prop :=
  t.phase = s.phase ∧ t.ev = [] ∧ t.rxStream = s.rxStream ∧ t.cfg = s.cfg ∧ t.port = s.port ∧
    t.txStream = s.txStream ++ t.tx.bytes

theorem transmit_writesTransmitOnly (s : State) (r : TxResult) : WritesTransmitOnly s (s.transmit r) :=
  ⟨rfl, rfl, rfl, rfl, rfl, rfl⟩

/-- A classification sends nothing (R130). -/
theorem classified_writesTransmitOnly (s : State) (o : ReplyOutcome) : WritesTransmitOnly s (s.classified o) :=
  ⟨rfl, rfl, rfl, rfl, rfl, (List.append_nil _).symm⟩

theorem exec_writesTransmitOnly {i : Instr} {s t : State} (hi : onTransmitSide i = true) (h : exec i s = .next t) :
    WritesTransmitOnly s t := by
  rcases exec_of_onTransmitSide hi with ⟨r, hr⟩ | ⟨o, ho⟩
  · cases (hr s).symm.trans h
    exact transmit_writesTransmitOnly ..
  · cases (ho s).symm.trans h
    exact classified_writesTransmitOnly ..

/-- Another phase before the operation is the same other phase after it, and makes no other difference: result and
outcome are computed from the configuration alone. -/
theorem exec_with_phase {i : Instr} {s t : State} (hi : onTransmitSide i = true) (h : exec i s = .next t)
    (phase : Phase) : exec i { s with phase := phase } = .next { t with phase := phase } := by
  rcases exec_of_onTransmitSide hi with ⟨r, hr⟩ | ⟨o, ho⟩
  · cases (hr s).symm.trans h
    exact hr { s with phase := phase }
  · cases (ho s).symm.trans h
    exact ho { s with phase := phase }

@[simp] theorem TxResult.bytes_sent (out : List Byte) : (TxResult.sent out).bytes = out := rfl

theorem TxResult.bytes_eq_nil_of_not_sent {r : TxResult} (h : ∀ out, r ≠ .sent out) : r.bytes = [] := by
  cases r with
  | sent out => exact absurd rfl (h out)
  | reject | nothing => rfl

/-- Settles O25: the frame of the two forms gives what is not written, and the run from another phase what is not
read. -/
theorem transmitSideLeavesTheReceiveStateAlone : Obligations.TransmitSideLeavesTheReceiveStateAlone := by
  intro i s t hi h
  obtain ⟨hphase, hev, hrx, hcfg, hport, htx⟩ := exec_writesTransmitOnly hi h
  refine ⟨hphase, hev, hrx, hcfg, hport, fun out hsent => ?sent, fun hnone => ?silent,
    fun phase => ⟨_, exec_with_phase hi h phase, rfl, rfl, rfl⟩⟩
  case sent => rw [htx, hsent, TxResult.bytes_sent]
  case silent => rw [htx, TxResult.bytes_eq_nil_of_not_sent hnone, List.append_nil]

/-! ### `TXF` and `TXR` (R105, R106, R108) -/

/-- `TXF` is op-select 0x1, whatever its operands (R68). -/
theorem opSelect_encode_txf (cmd : Byte) (payload : List Byte) : opSelect (encode (.txf cmd payload)).word = 0x1 := rfl

/-- `TXR` is op-select 0x2, whatever its bytes (R68). -/
theorem opSelect_encode_txr (bytes : List Byte) : opSelect (encode (.txr bytes)).word = 0x2 := rfl

theorem exec_txf (cmd : Byte) (payload : List Byte) (s : State) :
    exec (.txf cmd payload) s = .next (s.transmit (frameResult cmd payload)) := rfl

theorem exec_txr (bytes : List Byte) (s : State) : exec (.txr bytes) s = .next (s.transmit (.sent bytes)) := rfl

theorem transmit_sent (s : State) (out : List Byte) : s.transmit (.sent out) =
    { s with ev := [], tx := .sent out, outcome := none, txStream := s.txStream ++ out } := rfl

/-- A rejection leaves the transmit output as it was. -/
theorem transmit_reject (s : State) (e : ErrCode) : s.transmit (.reject e) =
    { s with ev := [], tx := .reject e, outcome := none } := by
  simp only [State.transmit, TxResult.bytes, List.append_nil]

theorem frameResult_of_fits (cmd : Byte) {payload : List Byte} (h : payload.length ≤ 252) :
    frameResult cmd payload = .sent (encodeFrame cmd payload) := by
  rcases frameResult_cases cmd payload with ⟨-, hsent⟩ | ⟨hlong, -⟩
  · exact hsent
  · omega

theorem frameResult_of_oversized (cmd : Byte) {payload : List Byte} (h : 252 < payload.length) :
    frameResult cmd payload = .reject .txTooLong := by
  rcases frameResult_cases cmd payload with ⟨hfits, -⟩ | ⟨-, hreject⟩
  · omega
  · exact hreject

theorem exec_txf_of_fits (cmd : Byte) {payload : List Byte} (h : payload.length ≤ 252) (s : State) :
    exec (.txf cmd payload) s = .next (s.transmit (.sent (encodeFrame cmd payload))) := by
  rw [exec_txf, frameResult_of_fits cmd h]

theorem exec_txf_of_oversized (cmd : Byte) {payload : List Byte} (h : 252 < payload.length) (s : State) :
    exec (.txf cmd payload) s = .next (s.transmit (.reject .txTooLong)) := by
  rw [exec_txf, frameResult_of_oversized cmd h]

/-- Settles O19: a payload that fits is sent as `ENCODE` has it, and a longer one is rejected. -/
theorem transmitFrameSendsTheEncodedFrame : Obligations.TransmitFrameSendsTheEncodedFrame := by
  refine fun s cmd payload => ⟨opSelect_encode_txf cmd payload, fun hfits => ?fits, fun hlong => ?oversized⟩
  case fits =>
    rw [exec_txf_of_fits cmd hfits, transmit_sent, encodeFrame_eq]
    rfl
  case oversized => rw [exec_txf_of_oversized cmd hlong, transmit_reject]

/-- Settles O20: the result is the list itself, with no case on its length. -/
theorem transmitRawSendsTheBytesUnchanged : Obligations.TransmitRawSendsTheBytesUnchanged := by
  refine fun s bytes => ⟨opSelect_encode_txr bytes, ?_⟩
  rw [exec_txr, transmit_sent]

/-- An empty payload always fits, so `TXF` sends the four bytes of its frame. -/
theorem exec_txf_nil_sends {cmd : Byte} {out : List Byte} (hout : encodeFrame cmd [] = out) (s : State) :
    ∃ t, exec (.txf cmd []) s = .next t ∧ t.tx = .sent out :=
  ⟨_, exec_txf_of_fits (payload := []) cmd (Nat.zero_le 252) s, congrArg TxResult.sent hout⟩

/-- Settles O21: the bytes are those of `ENCODE` for each of the two commands, the second with a sum past 255. -/
theorem referenceFramesAreSent : Obligations.ReferenceFramesAreSent :=
  fun s => ⟨exec_txf_nil_sends (by decide) s, exec_txf_nil_sends (by decide) s⟩

end Sys2Proof.Machine

/-! The command helpers (R115 to R133). A builder ends in the transmit result of the one frame it builds, so its
obligation is the frame's bytes and the bound on its payload; the classifier ends in the outcome its chain of cases
gives. -/

namespace Sys2Proof.Machine

/-! ### One frame transmitted (R105, R106, R116) -/

/-- A payload that fits goes out between its header and its checksum, and nothing else in the state is new. -/
theorem transmit_frameResult_of_fits (cmd : Byte) {payload : List Byte} (h : payload.length ≤ 252) (s : State) :
    s.transmit (frameResult cmd payload) =
      { s with
        ev := []
        tx := .sent ([lo8 (2 + payload.length), cmd, 0x00] ++ payload
          ++ [csum (lo8 (2 + payload.length)) ([cmd, 0x00] ++ payload)])
        outcome := none
        txStream := s.txStream ++ ([lo8 (2 + payload.length), cmd, 0x00] ++ payload
          ++ [csum (lo8 (2 + payload.length)) ([cmd, 0x00] ++ payload)]) } := by
  rw [frameResult_of_fits cmd h, transmit_sent, encodeFrame_eq]
  rfl

theorem transmit_frameResult_of_oversized (cmd : Byte) {payload : List Byte} (h : 252 < payload.length) (s : State) :
    s.transmit (frameResult cmd payload) = { s with ev := [], tx := .reject .txTooLong, outcome := none } := by
  rw [frameResult_of_oversized cmd h, transmit_reject]

/-! ### `CRE` (R117, R118) -/

/-- `CRE` is op-select 0x8, whatever its operands (R68). -/
theorem opSelect_encode_cre (regionID sub0 sub1 : Byte) (xPos : Half) (yPos width fontStyle : Byte)
    (text : List Byte) : opSelect (encode (.cre regionID sub0 sub1 xPos yPos width fontStyle text)).word = 0x8 := rfl

@[simp] theorem xBytes_length (cfg : Config) (xPos : Half) : (xBytes cfg xPos).length = 2 := by
  cases h : cfg.xByteOrder with
  | hiFirst => rw [xBytes_hiFirst h]; rfl
  | loFirst => rw [xBytes_loFirst h]; rfl

/-- Eleven fixed bytes come before the text, in either order of the bytes of `xPos`. -/
theorem createPayload_length (cfg : Config) (regionID sub0 sub1 : Byte) (xPos : Half) (yPos width fontStyle : Byte)
    (text : List Byte) :
    (createPayload cfg regionID sub0 sub1 xPos yPos width fontStyle text).length = 11 + text.length := by
  simp only [createPayload, List.length_append, List.length_cons, List.length_nil, xBytes_length]

theorem exec_cre_of_fits (regionID sub0 sub1 : Byte) (xPos : Half) (yPos width fontStyle : Byte) {text : List Byte}
    (h : text.length ≤ 241) (s : State) :
    exec (.cre regionID sub0 sub1 xPos yPos width fontStyle text) s = .next (s.transmit
      (frameResult 0x10 (createPayload s.cfg regionID sub0 sub1 xPos yPos width fontStyle text))) := by
  have hfits : ¬ createTextMax < text.length := Nat.not_lt.2 h
  simp only [exec, execCre, if_neg hfits, cmdCreateRegion]

theorem exec_cre_of_oversized (regionID sub0 sub1 : Byte) (xPos : Half) (yPos width fontStyle : Byte)
    {text : List Byte} (h : 241 < text.length) (s : State) :
    exec (.cre regionID sub0 sub1 xPos yPos width fontStyle text) s = .next (s.transmit (.reject .txTooLong)) := by
  have hlong : createTextMax < text.length := h
  simp only [exec, execCre, if_pos hlong]

/-- Settles O27: 241 text bytes are exactly what the eleven fixed bytes leave of a payload. -/
theorem createRegionSendsThePositionalPayload : Obligations.CreateRegionSendsThePositionalPayload := by
  intro s regionID sub0 sub1 xPos yPos width fontStyle text payload hpayload
  refine ⟨opSelect_encode_cre .., fun hfits => ?fits, fun hlong => ?oversized⟩
  case fits =>
    have hbuilt : createPayload s.cfg regionID sub0 sub1 xPos yPos width fontStyle text = payload := hpayload.symm
    have hlength : payload.length = 11 + text.length := hbuilt ▸ createPayload_length ..
    have hlen : 2 + payload.length = 13 + text.length := by omega
    rw [exec_cre_of_fits _ _ _ _ _ _ _ hfits, hbuilt, transmit_frameResult_of_fits 0x10 (by omega), hlen]
  case oversized => rw [exec_cre_of_oversized _ _ _ _ _ _ _ hlong, transmit_reject]

/-! ### `CHG` (R121) -/

/-- `CHG` is op-select 0x9, whatever its operands (R68). -/
theorem opSelect_encode_chg (regionID sub0 sub1 visible style : Byte) (text : List Byte) :
    opSelect (encode (.chg regionID sub0 sub1 visible style text)).word = 0x9 := rfl

theorem exec_chg (regionID sub0 sub1 visible style : Byte) (text : List Byte) (s : State) :
    exec (.chg regionID sub0 sub1 visible style text) s = .next (s.transmit
      (frameResult 0x11 (changeLayout s.cfg ⟨regionID, sub0, sub1, visible, style, text⟩))) := rfl

/-- Settles O29: whatever the layout gives is transmitted as one frame, so its length alone decides. -/
theorem changeRegionSendsTheConfiguredLayout : Obligations.ChangeRegionSendsTheConfiguredLayout := by
  rintro s regionID sub0 sub1 visible style text payload rfl
  refine ⟨opSelect_encode_chg .., fun hfits => ?fits, fun hlong => ?oversized⟩
  case fits => rw [exec_chg, transmit_frameResult_of_fits 0x11 hfits]
  case oversized => rw [exec_chg, transmit_frameResult_of_oversized 0x11 hlong]

/-! ### `DRW` and `CLR` (R124 to R126) -/

/-- `DRW` is op-select 0xA, whatever its operands (R68). -/
theorem opSelect_encode_drw (regionID flag : Byte) : opSelect (encode (.drw regionID flag)).word = 0xA := rfl

/-- `CLR` is op-select 0xB, whatever its operands (R68). -/
theorem opSelect_encode_clr (regionID flag : Byte) : opSelect (encode (.clr regionID flag)).word = 0xB := rfl

theorem exec_drw (regionID flag : Byte) (s : State) :
    exec (.drw regionID flag) s = .next (s.transmit (frameResult 0x70 [regionID, flag])) := rfl

theorem exec_clr (regionID flag : Byte) (s : State) :
    exec (.clr regionID flag) s = .next (s.transmit (frameResult 0x60 [regionID, flag])) := rfl

/-- A region id and a flag always fit, so each of the two operations sends the six bytes of its frame (R125). -/
theorem transmit_regionFlag (cmd regionID flag : Byte) (s : State) :
    s.transmit (frameResult cmd [regionID, flag]) =
      { s with
        ev := []
        tx := .sent [0x04, cmd, 0x00, regionID, flag, csum 0x04 [cmd, 0x00, regionID, flag]]
        outcome := none
        txStream := s.txStream ++ [0x04, cmd, 0x00, regionID, flag, csum 0x04 [cmd, 0x00, regionID, flag]] } :=
  transmit_frameResult_of_fits cmd (payload := [regionID, flag]) (by simp) s

/-- Settles O30: the frame of command 0x70, with no case on the flag. -/
theorem drawRegionSendsSixBytes : Obligations.DrawRegionSendsSixBytes := by
  refine fun s regionID flag => ⟨opSelect_encode_drw regionID flag, ?_⟩
  rw [exec_drw, transmit_regionFlag]

/-- Settles O31: the frame of command 0x60, with no case on the flag. -/
theorem clearRegionSendsSixBytes : Obligations.ClearRegionSendsSixBytes := by
  refine fun s regionID flag => ⟨opSelect_encode_clr regionID flag, ?_⟩
  rw [exec_clr, transmit_regionFlag]

/-! ### `CLS` (R130, R131) -/

/-- `CLS` is op-select 0xC, whatever its frame (R68). -/
theorem opSelect_encode_cls (f : Frame) : opSelect (encode (.cls f)).word = 0xC := rfl

theorem exec_cls (f : Frame) (s : State) : exec (.cls f) s = .next (s.classified (classify s.cfg f)) := rfl

theorem errorOutcome_of_getElem? {cfg : Config} {payload : List Byte} {c : Byte}
    (h : payload[cfg.errCodeOffset]? = some c) : errorOutcome cfg payload = .remoteError (errName cfg c) := by
  simp only [errorOutcome, h]

theorem errorOutcome_of_short {cfg : Config} {payload : List Byte} (h : payload.length ≤ cfg.errCodeOffset) :
    errorOutcome cfg payload = .errCodeAbsent := by
  simp only [errorOutcome, List.getElem?_eq_none h]

/-- Either the payload reaches the configured offset and its byte there is named, or it has no such byte. -/
theorem errorOutcome_eq_dite (cfg : Config) (payload : List Byte) : errorOutcome cfg payload =
    if h : cfg.errCodeOffset < payload.length then .remoteError (errName cfg payload[cfg.errCodeOffset])
    else .errCodeAbsent := by
  split
  case isTrue h => exact errorOutcome_of_getElem? (List.getElem?_eq_getElem h)
  case isFalse h => exact errorOutcome_of_short (Nat.le_of_not_lt h)

theorem classify_of_ack (cfg : Config) {f : Frame} (h : f.command = 0xFF) : classify cfg f = .ok := if_pos h

theorem classify_of_error (cfg : Config) {f : Frame} (h : f.command = 0xFE) :
    classify cfg f = errorOutcome cfg f.payload := by
  have hack : f.command ≠ cmdAck := by rw [h]; decide
  exact (if_neg hack).trans (if_pos h)

theorem classify_of_other (cfg : Config) {f : Frame} (hack : f.command ≠ 0xFF) (herror : f.command ≠ 0xFE) :
    classify cfg f = .notAck := (if_neg hack).trans (if_neg herror)

/-- Settles O32: the command selects the case, and in an error frame the byte at the configured offset the name. -/
theorem classifierNamesTheReply : Obligations.ClassifierNamesTheReply := by
  refine fun s f => ⟨opSelect_encode_cls f, ?_⟩
  by_cases hack : f.command = 0xFF
  case pos =>
    rw [exec_cls, classify_of_ack _ hack, if_pos hack]
    rfl
  by_cases herror : f.command = 0xFE
  case pos =>
    rw [exec_cls, classify_of_error _ herror, errorOutcome_eq_dite, if_neg hack, if_pos herror]
    rfl
  case neg =>
    rw [exec_cls, classify_of_other _ hack herror, if_neg hack, if_neg herror]
    rfl

end Sys2Proof.Machine

/-! The start of a hunt (R151, R152): `RST` leads to `HUNT 0` from every state, power-up begins there, and there the
synchronizer compares the received byte with the first pattern byte alone. -/

namespace Sys2Proof.Machine

/-- `RST` is op-select 0x3 (R68). -/
theorem opSelect_encode_rst : opSelect (encode .rst).word = 0x3 := rfl

/-- Settles O34: `RST` is the receive step to `HUNT 0` without an event, so the output streams stay as they were. -/
theorem resetReturnsToHuntSilently : Obligations.ResetReturnsToHuntSilently := by
  refine fun s => ⟨opSelect_encode_rst, ?_⟩
  calc exec .rst s = .next (s.receiveTo (.hunt 0) []) := exec_rst s
    _ = _ := congrArg Host.Outcome.next (receiveTo_nil ..)

/-- With nothing matched, the expected byte and the byte of the re-test are both `P[0]` (R81). -/
theorem huntNext_zero (P : SyncPattern) (b : Byte) : huntNext P 0 b = if b = P[0] then .hunt 1 else .hunt 0 := by
  by_cases hfirst : b = P[0]
  case pos =>
    calc huntNext P 0 b = if (0 : Fin 4) = 3 then .len else .hunt (0 + 1) := if_pos hfirst
      _ = .hunt 1 := if_neg (by decide)
      _ = _ := (if_pos hfirst).symm
  case neg => exact if_neg hfirst

/-- Settles O36: power-up is `HUNT 0`, where the first byte's phase is `huntNext` at match index 0. -/
theorem powerUpHuntsForTheFirstPatternByte : Obligations.PowerUpHuntsForTheFirstPatternByte := by
  refine ⟨State.reset_phase, State.reset_ev, State.reset_tx, State.reset_rxStream, State.reset_txStream,
    fun b => ⟨huntStep 0 b State.reset, exec_rxb_hunt State.reset_phase b, ?_⟩⟩
  rw [huntStep_eq_receiveTo, State.receiveTo_phase, huntNext_zero]

end Sys2Proof.Machine

/-! What every operation keeps. Each operation ends in one of three ways, a receive step, a transmit step or a
classification, with results computed from the configuration and the phase alone; the frame rules of the block, its
outputs (R31, R46), its independence of the port and the commutation of R47 are read off from that. -/

namespace Sys2Proof.Machine

/-! ### The phase invariant (R26) -/

/-- A match index is at most 3, being an index into the pattern. -/
theorem Phase.inv_hunt (mi : Fin 4) : (Phase.hunt mi).Inv := Nat.le_of_lt_succ mi.isLt

theorem huntNext_inv (P : SyncPattern) (mi : Fin 4) (b : Byte) : (huntNext P mi b).Inv := by
  unfold huntNext
  split_ifs
  case pos => trivial
  all_goals exact Phase.inv_hunt _

theorem huntStep_inv (mi : Fin 4) (b : Byte) (s : State) : (huntStep mi b s).Inv := by
  rw [huntStep_eq_receiveTo]
  exact huntNext_inv ..

/-- An accepted length byte is in range, and its buffer is empty. -/
theorem lenStep_inv (b : Byte) (s : State) : (lenStep b s).Inv := by
  rcases lenStep_cases b s with ⟨hb, h⟩ | ⟨-, h⟩ <;> rw [h]
  · exact ⟨hb, Nat.zero_le _⟩
  · exact Phase.inv_hunt 0

/-- A completion leaves no buffer behind. -/
theorem completeFrame_inv (len : Byte) (body : List Byte) (chk : Byte) (s : State) :
    (completeFrame len body chk s).Inv := by
  rcases completeFrame_cases len body chk s with ⟨-, h⟩ | ⟨-, h⟩ <;> rw [h]
  · change (if s.cfg.staySynced then Phase.len else .hunt 0).Inv
    split_ifs
    · trivial
    · exact Phase.inv_hunt 0
  · exact Phase.inv_hunt 0

/-- A buffer short of the length byte has room for one byte more, and a full one is completed. -/
theorem bodyStep_inv {len : Byte} {acc : List Byte} (hinv : (Phase.body len acc).Inv) (b : Byte) (s : State) :
    (bodyStep len acc b s).Inv := by
  obtain ⟨hlen, hacc⟩ := hinv
  rcases Nat.lt_or_eq_of_le hacc with hmore | hfull
  · rw [bodyStep_more len acc b s hmore]
    exact ⟨hlen, by simpa using hmore⟩
  · rw [bodyStep_last len acc b s hfull]
    exact completeFrame_inv ..

theorem exec_rxb_inv {s t : State} {b : Byte} (hinv : s.Inv) (h : exec (.rxb b) s = .next t) : t.Inv := by
  cases hs : s.phase with
  | hunt mi =>
    cases (exec_rxb_hunt hs b).symm.trans h
    exact huntStep_inv mi b s
  | len =>
    cases (exec_rxb_len hs b).symm.trans h
    exact lenStep_inv b s
  | body len acc =>
    cases (exec_rxb_body hs b).symm.trans h
    exact bodyStep_inv (hs ▸ hinv) b s

theorem exec_inv {i : Instr} {s t : State} (hinv : s.Inv) (h : exec i s = .next t) : t.Inv := by
  rcases rxb_or_rst_or_onTransmitSide i with ⟨b, rfl⟩ | rfl | hi
  · exact exec_rxb_inv hinv h
  · cases (exec_rst s).symm.trans h
    exact Phase.inv_hunt 0
  · rw [State.Inv, phase_of_onTransmitSide hi h]
    exact hinv

/-- Settles O48: an idle step holds the state, and every other step is one operation, which keeps `INV`. -/
theorem everyStepKeepsThePhaseInvariant : Obligations.EveryStepKeepsThePhaseInvariant := by
  intro s t hinv hstep
  rcases step_next_cases hstep with ⟨-, rfl⟩ | ⟨p, rest, i, -, -, hexec⟩
  · exact hinv
  · exact exec_inv (s := { s with port := rest }) hinv hexec

/-- Settles O47: power-up is `HUNT 0` with both records of events empty. -/
theorem powerUpMeetsTheInvariants : Obligations.PowerUpMeetsTheInvariants :=
  ⟨Phase.inv_hunt 0, List.forall_mem_nil _, List.forall_mem_nil _⟩

/-! ### The three ways an operation ends -/

/-- A received byte ends in a receive step with at most one event; phase and event depend on the configuration and the
phase alone (R37, R77). -/
theorem exec_rxb_receives (b : Byte) (cfg : Config) (phase : Phase) :
    ∃ next es, es.length ≤ 1 ∧
      ∀ s, s.cfg = cfg → s.phase = phase → exec (.rxb b) s = .next (s.receiveTo next es) := by
  cases phase with
  | hunt mi =>
    refine ⟨huntNext cfg.syncPattern mi b, [], Nat.zero_le 1, ?_⟩
    rintro s rfl hs
    rw [exec_rxb_hunt hs, huntStep_eq_receiveTo]
  | len =>
    by_cases hb : 1 ≤ b.toNat ∧ b.toNat ≤ 254
    case pos => exact ⟨_, [], Nat.zero_le 1, fun s _ hs => exec_rxb_len_of_accepted hs hb⟩
    case neg =>
      exact ⟨_, [.resyncBadLength b], Nat.le_refl 1,
        fun s _ hs => exec_rxb_len_of_reserved hs (eq_zero_or_eq_ff_of_not_accepted hb)⟩
  | body len acc =>
    rcases bodyStep_cases len acc b with hmore | ⟨body, chk, hlast⟩
    · exact ⟨_, [], Nat.zero_le 1, fun s _ hs => by rw [exec_rxb_body hs, hmore]⟩
    by_cases hchk : csum len body = chk
    case pos =>
      refine ⟨if cfg.staySynced then .len else .hunt 0, [.frameOut (mkFrame len body chk)], Nat.le_refl 1, ?_⟩
      rintro s rfl hs
      rw [exec_rxb_body hs, hlast, completeFrame_of_match hchk]
      rfl
    case neg =>
      refine ⟨.hunt 0, [.resyncBadChecksum len (csum len body) chk], Nat.le_refl 1, fun s _ hs => ?_⟩
      rw [exec_rxb_body hs, hlast, completeFrame_of_mismatch hchk]
      rfl

/-- Every operation is a receive step, a transmit step or a classification, the same one in all states of one
configuration and one phase. -/
theorem exec_cases (i : Instr) (cfg : Config) (phase : Phase) :
    (∃ next es, es.length ≤ 1 ∧ (es ≠ [] → ∃ b, i = .rxb b) ∧
        ∀ s, s.cfg = cfg → s.phase = phase → exec i s = .next (s.receiveTo next es)) ∨
      (∃ r, ∀ s, s.cfg = cfg → s.phase = phase → exec i s = .next (s.transmit r)) ∨
      ∃ o, ∀ s, s.cfg = cfg → s.phase = phase → exec i s = .next (s.classified o) := by
  rcases rxb_or_rst_or_onTransmitSide i with ⟨b, rfl⟩ | rfl | hi
  · obtain ⟨next, es, hone, hexec⟩ := exec_rxb_receives b cfg phase
    exact .inl ⟨next, es, hone, fun _ => ⟨b, rfl⟩, hexec⟩
  · exact .inl ⟨.hunt 0, [], Nat.zero_le 1, fun hne => absurd rfl hne, fun s _ _ => exec_rst s⟩
  · rcases exec_of_onTransmitSide hi with ⟨r, hr⟩ | ⟨o, ho⟩
    · exact .inr (.inl ⟨r cfg, fun s hcfg _ => hcfg ▸ hr s⟩)
    · exact .inr (.inr ⟨o cfg, fun s hcfg _ => hcfg ▸ ho s⟩)

/-! ### What no operation writes, and the outputs (R29, R31, R46) -/

theorem exec_cfg {i : Instr} {s t : State} (h : exec i s = .next t) : t.cfg = s.cfg := by
  rcases exec_cases i s.cfg s.phase with ⟨_, _, -, -, hexec⟩ | ⟨_, hexec⟩ | ⟨_, hexec⟩ <;>
    cases (hexec s rfl rfl).symm.trans h <;> rfl

/-- Settles O51: no operation writes the configuration, and taking an operation from the port does not either. -/
theorem noStepWritesTheConfiguration : Obligations.NoStepWritesTheConfiguration := by
  intro s t hstep
  rcases step_next_cases hstep with ⟨-, rfl⟩ | ⟨p, rest, i, -, -, hexec⟩
  · rfl
  · exact exec_cfg (s := { s with port := rest }) hexec

/-- Only the transmit and builder operations have a transmit result (R32). -/
theorem onTransmitSide_of_tx_ne_nothing {i : Instr} {s t : State} (h : exec i s = .next t) (htx : t.tx ≠ .nothing) :
    onTransmitSide i = true ∧ ∀ f, i ≠ .cls f := by
  cases i with
  | rxb b =>
    obtain ⟨next, es, -, hexec⟩ := exec_rxb_receives b s.cfg s.phase
    cases (hexec s rfl rfl).symm.trans h
    exact absurd rfl htx
  | rst =>
    cases (exec_rst s).symm.trans h
    exact absurd rfl htx
  | cls f =>
    cases (exec_cls f s).symm.trans h
    exact absurd rfl htx
  | txf | txr | cre | chg | drw | clr => exact ⟨rfl, nofun⟩

/-- Settles O50: a receive step appends its events and sends nothing, a transmit step sends its bytes and emits nothing,
a classification does neither. -/
theorem eachOperationEmitsAtMostOneEvent : Obligations.EachOperationEmitsAtMostOneEvent := by
  intro i s t h
  have htx := onTransmitSide_of_tx_ne_nothing h
  rcases exec_cases i s.cfg s.phase with ⟨next, es, hone, hrxb, hexec⟩ | ⟨r, hexec⟩ | ⟨o, hexec⟩ <;>
    cases (hexec s rfl rfl).symm.trans h
  case inl => exact ⟨hone, rfl, (List.append_nil _).symm, hrxb, htx⟩
  case inr.inl => exact ⟨Nat.zero_le 1, (List.append_nil _).symm, rfl, fun hne => absurd rfl hne, htx⟩
  case inr.inr =>
    exact ⟨Nat.zero_le 1, (List.append_nil _).symm, (List.append_nil _).symm, fun hne => absurd rfl hne, htx⟩

/-! ### Transmit and receive commute (R47) -/

/-- Settles O26: the receive step is the same one before and after the transmit operation, which is the same one before
and after the receive step. -/
theorem transmitAndReceiveOperationsCommute : Obligations.TransmitAndReceiveOperationsCommute := by
  intro i b s hi
  obtain ⟨next, es, -, hrx⟩ := exec_rxb_receives b s.cfg s.phase
  have hfirst : exec (.rxb b) s = .next (s.receiveTo next es) := hrx s rfl rfl
  rcases exec_of_onTransmitSide hi with ⟨r, hr⟩ | ⟨o, ho⟩
  · have hsecond : exec (.rxb b) (s.transmit (r s.cfg)) = _ := hrx _ rfl rfl
    exact ⟨_, _, (performAll_cons (hr s) _).trans (performAll_cons hsecond []),
      (performAll_cons hfirst _).trans (performAll_cons (hr _) []), rfl, rfl, rfl⟩
  · have hsecond : exec (.rxb b) (s.classified (o s.cfg)) = _ := hrx _ rfl rfl
    exact ⟨_, _, (performAll_cons (ho s) _).trans (performAll_cons hsecond []),
      (performAll_cons hfirst _).trans (performAll_cons (ho _) []), rfl, rfl, rfl⟩

/-! ### Reset twice (R44) -/

/-- Settles O35: the second reset starts from `HUNT 0` without events and leads there again. -/
theorem resetTwiceIsResetOnce : Obligations.ResetTwiceIsResetOnce := by
  intro s
  have hagain : s.restart.restart = s.restart := receiveTo_receiveTo s (.hunt 0) (.hunt 0) []
  have htwice : performAll [.rst, .rst] s = .next s.restart.restart :=
    (performAll_cons (exec_rst s) [.rst]).trans (performAll_cons (exec_rst s.restart) [])
  exact ⟨s.restart, performAll_cons (exec_rst s) [], hagain ▸ htwice⟩

end Sys2Proof.Machine

/-! A valid frame, its body and its wire image (R54, R56, R66): the length byte counts the body, and the body determines
the frame. -/

namespace Sys2Proof.Machine

/-- A valid frame is minimal or has a pad, and in either form its length byte and checksum follow from the rest. -/
theorem valid_cases {f : Frame} (hf : f.Valid) :
    f = ⟨1, f.command, none, [], csum 1 [f.command]⟩ ∨
      ∃ pad, f.length.toNat = f.payload.length + 2 ∧
        f = ⟨f.length, f.command, some pad, f.payload, csum f.length (f.command :: pad :: f.payload)⟩ := by
  obtain ⟨length, command, pad, payload, checksum⟩ := f
  obtain ⟨⟨hmin, hmax⟩, hpad, hpayload, hchk⟩ := hf
  cases pad with
  | none =>
    obtain rfl : length = 1 := hpad.1 rfl
    obtain rfl : payload = [] := List.length_eq_zero_iff.1 hpayload
    exact .inl (congrArg _ hchk)
  | some pad =>
    have hne : length ≠ 1 := fun h => nomatch hpad.2 h
    have htwo : 2 ≤ length.toNat := by simp only [lenMin] at hmin; bv_omega
    rw [if_pos htwo] at hpayload
    have hlength : length.toNat = payload.length + 2 := by dsimp only at hpayload; omega
    exact .inr ⟨pad, hlength, congrArg _ hchk⟩

/-- The length byte of a valid frame counts its body (R55). -/
theorem valid_body_length {f : Frame} (hf : f.Valid) : f.body.length = f.length.toNat := by
  rcases valid_cases hf with h | ⟨pad, hlength, h⟩ <;> rw [h]
  · rfl
  · exact hlength.symm

theorem valid_csum {f : Frame} (hf : f.Valid) : csum f.length f.body = f.checksum := by
  obtain ⟨-, -, -, hchk⟩ := hf
  exact hchk.symm

/-- Splitting a valid frame's body gives the frame back (R94). -/
theorem mkFrame_body {f : Frame} (hf : f.Valid) : mkFrame f.length f.body f.checksum = f := by
  rcases valid_cases hf with h | ⟨pad, hlength, h⟩ <;> rw [h]
  · exact mkFrame_minimal ..
  · exact mkFrame_padded _ _ _ _ _ hlength

theorem lo8_toNat_self (b : Byte) : lo8 b.toNat = b := BitVec.eq_of_toNat_eq (Nat.mod_eq_of_lt b.isLt)

/-- The body of a valid frame determines the frame (R55, R66). -/
theorem frameOfBody_body {f : Frame} (hf : f.Valid) : frameOfBody f.body = f := by
  rw [frameOfBody, valid_body_length hf, lo8_toNat_self, valid_csum hf, mkFrame_body hf]

/-- A body of 1 to 254 bytes makes a valid frame. -/
theorem frameOfBody_valid {body : List Byte} (hmin : 1 ≤ body.length) (hmax : body.length ≤ 254) :
    (frameOfBody body).Valid := by
  have hlen : (lo8 body.length).toNat = body.length := by rw [lo8_toNat]; omega
  exact mkFrame_valid (by omega) (by omega) hlen.symm

/-- Settles O10: length byte and checksum come beside the body. -/
theorem wireImageIsTwoBytesLongerThanItsLength : Obligations.WireImageIsTwoBytesLongerThanItsLength := by
  intro f hf
  rw [Frame.wire, List.length_cons, List.length_append, List.length_singleton, valid_body_length hf]

/-- Settles O5: a full body is the command alone or begins with command and pad, and `mkFrame` splits each of the two;
the record is then valid by `mkFrame_valid`. -/
theorem frameRecordIsSplitFromTheBody : Obligations.FrameRecordIsSplitFromTheBody := by
  intro len body chk hmin hmax hbody
  have hcommand : body[0]? = some (mkFrame len body chk).command := by
    cases body with
    | nil => exact absurd hmin (by simp [← hbody])
    | cons command rest => rfl
  have hpayload : (mkFrame len body chk).payload = body.drop 2 :=
    congrArg (List.drop 2) (List.take_of_length_le hbody.le)
  refine ⟨rfl, hcommand, rfl, hpayload, rfl, ?_⟩
  rintro rfl
  exact mkFrame_valid hmin hmax hbody

end Sys2Proof.Machine

/-! The port (R67 to R69, R73, R46). One case analysis of the decoder says what it gives and what it refuses, and a run
from the port is the presented operations in order. -/

namespace Sys2Proof.Machine

/-! ### Decode and encode (R68, R69) -/

theorem halfOf_halfHi_halfLo (x : Half) : halfOf (halfHi x) (halfLo x) = x := by
  apply BitVec.eq_of_toNat_eq
  rw [halfOf, halfHi_toNat, halfLo_toNat, Nat.div_add_mod']
  exact Nat.mod_eq_of_lt x.isLt

theorem wellFormed_cls_iff (f : Frame) : (Instr.cls f).wellFormed = true ↔ f.Valid := decide_eq_true_iff

theorem decode_of_cls {p : PortOp} (hselect : opSelect p.word = 0xC) (hfit : p.bytes.length < 254) :
    decode p = .ok (.cls (frameOfBody (p.lane0 :: p.bytes))) := by
  have hbody : (p.lane0 :: p.bytes).length ≤ lenMax := hfit
  simp only [decode, hselect, if_pos hbody]

theorem decode_of_oversized_cls {p : PortOp} (hselect : opSelect p.word = 0xC) (hlong : 254 ≤ p.bytes.length) :
    decode p = .error (.notAFrame (p.bytes.length + 1)) := by
  have hbody : ¬ (p.lane0 :: p.bytes).length ≤ lenMax := Nat.not_le.2 (Nat.lt_succ_of_le hlong)
  simp only [decode, hselect, if_neg hbody]
  rfl

/-- A presented body that is a valid frame's decodes to that frame. -/
theorem decode_encode_cls {f : Frame} (hf : f.Valid) : decode (encode (.cls f)) = .ok (.cls f) := by
  have hbody : f.body.length ≤ lenMax := by
    have ⟨⟨_, hmax⟩, _⟩ := hf
    exact valid_body_length hf ▸ hmax
  rw [decode_of_cls (opSelect_encode_cls f) hbody]
  exact congrArg (fun g => Except.ok (Instr.cls g)) (frameOfBody_body hf)

theorem decode_encode {i : Instr} (hi : i.wellFormed = true) : decode (encode i) = .ok i := by
  cases i with
  | rxb | txf | txr | rst | chg | drw | clr => rfl
  | cre regionID sub0 sub1 xPos yPos width fontStyle text =>
    exact congrArg (fun x => Except.ok (Instr.cre regionID sub0 sub1 x yPos width fontStyle text))
      (halfOf_halfHi_halfLo xPos)
  | cls f => exact decode_encode_cls ((wellFormed_cls_iff f).1 hi)

/-- Settles O37: the operands return lane by lane, `xPos` from its two bytes, and a frame from its body. -/
theorem decodeOfEncodeIsTheOperation : Obligations.DecodeOfEncodeIsTheOperation := fun _ hi => decode_encode hi

/-- An op-select is four bits wide. -/
theorem opSelect_lt (word : Byte) : opSelect word < 16 := BitVec.isLt _

/-- All that decoding can give: the two refusals, a frame to classify, or one of the operations whose operands are taken
as given (R69, R73). -/
theorem decode_cases (p : PortOp) :
    (opSelect p.word ∈ [0x4, 0x5, 0x6, 0x7, 0xD, 0xE, 0xF] ∧ ∃ e, decode p = .error e) ∨
      (opSelect p.word = 0xC ∧ 254 ≤ p.bytes.length ∧ ∃ e, decode p = .error e) ∨
      (opSelect p.word = 0xC ∧ p.bytes.length < 254 ∧
        decode p = .ok (.cls (frameOfBody (p.lane0 :: p.bytes)))) ∨
      (opSelect p.word ∈ [0x0, 0x1, 0x2, 0x3, 0x8, 0x9, 0xA, 0xB] ∧
        ∃ i, decode p = .ok i ∧ i.wellFormed = true) := by
  by_cases hreserved : opSelect p.word ∈ [0x4, 0x5, 0x6, 0x7, 0xD, 0xE, 0xF]
  case pos => exact .inl ⟨hreserved, _, decode_reserved hreserved⟩
  by_cases hcls : opSelect p.word = 0xC
  case pos =>
    rcases Nat.lt_or_ge p.bytes.length 254 with hfit | hlong
    · exact .inr (.inr (.inl ⟨hcls, hfit, decode_of_cls hcls hfit⟩))
    · exact .inr (.inl ⟨hcls, hlong, _, decode_of_oversized_cls hcls hlong⟩)
  have hselect : opSelect p.word ∈ [0x0, 0x1, 0x2, 0x3, 0x8, 0x9, 0xA, 0xB] := by
    have hlt := opSelect_lt p.word
    simp only [List.mem_cons, List.not_mem_nil, or_false] at hreserved ⊢
    omega
  refine .inr (.inr (.inr ⟨hselect, ?_⟩))
  simp only [List.mem_cons, List.not_mem_nil, or_false] at hselect
  rcases hselect with h | h | h | h | h | h | h | h <;> simp only [decode, h] <;> exact ⟨_, rfl, rfl⟩

/-- Settles O38: of the operations only `CLS` has a condition, and a body of 1 to 254 bytes meets it. -/
theorem decodedOperationIsWellFormed : Obligations.DecodedOperationIsWellFormed := by
  intro p i hdecode
  rcases decode_cases p with ⟨-, e, h⟩ | ⟨-, -, e, h⟩ | ⟨-, hfit, h⟩ | ⟨-, j, h, hwf⟩ <;>
    cases h.symm.trans hdecode
  case inr.inr.inl => exact (wellFormed_cls_iff _).2 (frameOfBody_valid (Nat.le_add_left 1 _) hfit)
  case inr.inr.inr => exact hwf

/-- Settles O39: the two refusals are the first two cases, whose conditions the other two exclude. -/
theorem decoderRefusesOnlyReservedSelectsAndOversizedFrames :
    Obligations.DecoderRefusesOnlyReservedSelectsAndOversizedFrames := by
  intro p
  rcases decode_cases p with ⟨hreserved, h⟩ | ⟨hcls, hlong, h⟩ | ⟨hcls, hfit, h⟩ | ⟨hselect, i, h, -⟩
  case inl => exact iff_of_true h (.inl hreserved)
  case inr.inl => exact iff_of_true h (.inr ⟨hcls, hlong⟩)
  case inr.inr.inl =>
    refine iff_of_false (by simp [h]) ?_
    rintro (hreserved | ⟨-, hlong⟩)
    · simp [hcls] at hreserved
    · omega
  case inr.inr.inr =>
    refine iff_of_false (by simp [h]) ?_
    simp only [List.mem_cons, List.not_mem_nil, or_false] at hselect ⊢
    omega

/-- Settles O40: each word's op-select and lanes, evaluated. -/
theorem tableWordsDecodeToTheirOperations : Obligations.TableWordsDecodeToTheirOperations := by
  unfold Obligations.TableWordsDecodeToTheirOperations
  decide

/-! ### A step of the port (R14, R46, R149) -/

theorem step_of_empty {s : State} (hport : s.port = []) : step s = .next s := by
  simp only [step, State.takeOp, hport]

theorem step_of_decode_ok {s : State} {p : PortOp} {rest : List PortOp} {i : Instr} (hport : s.port = p :: rest)
    (hdecode : decode p = .ok i) : step s = exec i { s with port := rest } := by
  simp only [step, State.takeOp, hport, hdecode]

/-- Settles O41: the entry is taken, decoded and performed. -/
theorem stepPerformsThePresentedOperation : Obligations.StepPerformsThePresentedOperation :=
  fun _ _ _ _ hport hdecode => step_of_decode_ok hport hdecode

/-- Settles O43: there is no entry to take. -/
theorem idleStepHoldsTheState : Obligations.IdleStepHoldsTheState := fun _ hport => step_of_empty hport

theorem decode_of_decodeTableWord {nbits w : Nat} {i : Instr} (h : decodeTableWord nbits w = some i) :
    decode (portOpOfBits nbits w) = .ok i := by
  unfold decodeTableWord at h
  cases hdecode : decode (portOpOfBits nbits w) with
  | ok j =>
    rw [hdecode] at h
    exact congrArg Except.ok (Option.some.inj h)
  | error e =>
    rw [hdecode] at h
    exact nomatch h

/-- Settles O44: the word is the first entry, and taking it gives back the state it was placed in. -/
theorem placedWordIsPerformedNext : Obligations.PlacedWordIsPerformedNext :=
  fun s nbits w _ h => step_of_decode_ok (s.withFetchWord_port nbits w) (decode_of_decodeTableWord h)

/-- Settles O46: a first entry that decodes is performed, and every operation answers a next state. -/
theorem onlyAnUndecodableOperationStopsARun : Obligations.OnlyAnUndecodableOperationStopsARun := by
  intro s
  cases hport : s.port with
  | nil => exact .inl ⟨s, step_of_empty hport⟩
  | cons p rest =>
    cases hdecode : decode p with
    | ok i =>
      obtain ⟨t, ht⟩ := exec_next i { s with port := rest }
      exact .inl ⟨t, (step_of_decode_ok hport hdecode).trans ht⟩
    | error e => exact .inr ⟨p, rest, e, rfl, hdecode, step_of_decode_error hport hdecode⟩

/-! ### A run from the port (R46) -/

/-- What else is presented at the port stays there, and makes no difference to the operation performed. -/
theorem exec_with_port (i : Instr) (s : State) : ∃ t : State, ∀ port,
    exec i { s with port := port } = .next { t with port := port } := by
  rcases exec_cases i s.cfg s.phase with ⟨next, es, -, -, hexec⟩ | ⟨r, hexec⟩ | ⟨o, hexec⟩
  · exact ⟨s.receiveTo next es, fun port => hexec { s with port := port } rfl rfl⟩
  · exact ⟨s.transmit r, fun port => hexec { s with port := port } rfl rfl⟩
  · exact ⟨s.classified o, fun port => hexec { s with port := port } rfl rfl⟩

theorem run_succ_of_step {s t : State} (h : step s = .next t) (k : Nat) :
    Sys2Proof.core.run (k + 1) s = Sys2Proof.core.run k t := by
  have hstep : Sys2Proof.core.step s = .next t := h
  simp only [Host.Core.run, hstep]

/-- The run and the sequence take the same operations, one with the later entries still at the port. -/
theorem run_eq_performAll (ops : List Instr) (rest : List PortOp) (hops : ∀ i ∈ ops, i.wellFormed = true) (s : State) :
    Sys2Proof.core.run ops.length { s with port := ops.map encode ++ rest } =
      performAll ops { s with port := rest } := by
  induction ops generalizing s with
  | nil => rfl
  | cons i ops ih =>
    obtain ⟨hi, hops⟩ := List.forall_mem_cons.1 hops
    obtain ⟨t, hexec⟩ := exec_with_port i s
    have hstep : step { s with port := encode i :: (ops.map encode ++ rest) } =
        .next { t with port := ops.map encode ++ rest } :=
      (step_of_decode_ok rfl (decode_encode hi)).trans (hexec _)
    have hsequence : performAll (i :: ops) { s with port := rest } = performAll ops { t with port := rest } :=
      performAll_cons (hexec rest) ops
    exact (run_succ_of_step hstep _).trans ((ih hops t).trans hsequence.symm)

/-- Settles O45: run and sequence are equal, and the sequence completes. -/
theorem presentedOperationsArePerformedInOrder : Obligations.PresentedOperationsArePerformedInOrder := by
  intro s ops rest hops
  obtain ⟨t, ht⟩ := performAll_next ops { s with port := rest }
  exact ⟨t, (run_eq_performAll ops rest hops s).trans ht, ht⟩

end Sys2Proof.Machine

/-! The synchronizer over a byte stream (R85, R86). Under `WF_SYNC` a match that breaks can go on only from the byte at
hand, as no shorter match but the empty one stands at its end; so the match index, which restarts from that byte alone,
is always the longest match. -/

namespace Sys2Proof.Machine

/-! ### Bytes received without an event -/

/-- Receiving `w` leads from `s` to the phase `ph`, with nothing emitted or sent on the way. -/
def ReachesSilently (s : State) (w : List Byte) (ph : Phase) : Prop :=
  ∃ t, performAll (rx w) s = .next t ∧ t.phase = ph ∧ t.cfg = s.cfg ∧ t.rxStream = s.rxStream ∧
    t.txStream = s.txStream

theorem reachesSilently_nil {s : State} {ph : Phase} (hs : s.phase = ph) : ReachesSilently s [] ph :=
  ⟨s, rfl, hs, rfl, rfl, rfl⟩

/-- A byte more while hunting: the phase moves on by `huntNext`. -/
theorem ReachesSilently.hunt_concat {s : State} {w : List Byte} {mi : Fin 4} {b : Byte} {ph : Phase}
    (h : ReachesSilently s w (.hunt mi)) (hnext : huntNext s.cfg.syncPattern mi b = ph) :
    ReachesSilently s (w ++ [b]) ph := by
  obtain ⟨t, hw, hphase, hcfg, hrx, htx⟩ := h
  have hbyte : exec (.rxb b) t = .next (t.receiveTo ph []) := by
    rw [exec_rxb_hunt hphase, huntStep_eq_receiveTo, hcfg, hnext]
  refine ⟨t.receiveTo ph [], ?_, rfl, hcfg, (List.append_nil _).trans hrx, htx⟩
  rw [rx_append, performAll_append hw]
  exact performAll_cons hbyte []

theorem ReachesSilently.exists_phase {s : State} {w : List Byte} {ph : Phase} (h : ReachesSilently s w ph) :
    ∃ t, performAll (rx w) s = .next t ∧ t.phase = ph := by
  obtain ⟨t, hw, hphase, -⟩ := h
  exact ⟨t, hw, hphase⟩

/-! ### The next phase of the synchronizer (R78 to R81) -/

theorem huntNext_of_last {P : SyncPattern} {b : Byte} (hb : b = P[3]) : huntNext P 3 b = .len :=
  (if_pos hb).trans (if_pos rfl)

theorem huntNext_of_expected {P : SyncPattern} {mi : Fin 4} {b : Byte} (hb : b = P[mi]) (hmi : mi ≠ 3) :
    huntNext P mi b = .hunt (mi + 1) := (if_pos hb).trans (if_neg hmi)

/-- A byte other than the expected one is tried once against the first pattern byte. -/
theorem huntNext_of_unexpected {P : SyncPattern} {mi : Fin 4} {b : Byte} (hb : b ≠ P[mi]) :
    huntNext P mi b = .hunt (if b = P[0] then 1 else 0) := by
  rw [huntNext, if_neg hb]
  split_ifs <;> rfl

/-- From `HUNT 0` the marker synchronizes, whatever the pattern (R79). -/
theorem reachesSilently_marker {s : State} (hs : s.phase = .hunt 0) :
    ReachesSilently s s.cfg.syncPattern.toList .len := by
  have h0 : ReachesSilently s [] (.hunt 0) := reachesSilently_nil hs
  have h1 := h0.hunt_concat (huntNext_of_expected rfl (by decide))
  have h2 := h1.hunt_concat (huntNext_of_expected rfl (by decide))
  have h3 := h2.hunt_concat (huntNext_of_expected rfl (by decide))
  rw [syncPattern_toList]
  exact h3.hunt_concat (huntNext_of_last rfl)

/-- Settles O17: the third `AA` breaks the match of two and restarts a match of one, where the marker's own second
byte was due. -/
theorem ambiguousPatternCanMissItsMarker : Obligations.AmbiguousPatternCanMissItsMarker := by
  intro s hs hP
  have h0 : ReachesSilently s [] (.hunt 0) := reachesSilently_nil hs
  have h1 := h0.hunt_concat (b := 0xAA) (ph := .hunt 1) (by rw [hP]; decide)
  have h2 := h1.hunt_concat (b := 0xAA) (ph := .hunt 2) (by rw [hP]; decide)
  have h3 := h2.hunt_concat (b := 0xAA) (ph := .hunt 1) (by rw [hP]; decide)
  have h4 := h3.hunt_concat (b := 0xB0) (ph := .hunt 0) (by rw [hP]; decide)
  have h5 := h4.hunt_concat (b := 0xC0) (ph := .hunt 0) (by rw [hP]; decide)
  exact ⟨h1.exists_phase, h2.exists_phase, h3.exists_phase, h4.exists_phase, h5.exists_phase⟩

/-! ### Pattern bytes at the end of a stream -/

/-- One pattern byte more is matched exactly when it is the byte received. -/
theorem take_succ_suffix_concat (P : SyncPattern) {m : Nat} (hm : m < 4) (w : List Byte) (b : Byte) :
    P.toList.take (m + 1) <:+ w ++ [b] ↔ P.toList.take m <:+ w ∧ b = P[m] := by
  have hlength : m < P.toList.length := by simpa using hm
  rw [List.take_succ_eq_append_getElem hlength,
    List.suffix_append_inj_of_length_eq (s₁ := [P.toList[m]]) (s₂ := [b]) rfl]
  simp [eq_comm]

theorem toList_suffix_concat (P : SyncPattern) (w : List Byte) (b : Byte) :
    P.toList <:+ w ++ [b] ↔ P.toList.take 3 <:+ w ∧ b = P[3] := by
  have hall : P.toList.take 4 = P.toList := List.take_of_length_le (by simp)
  rw [← take_succ_suffix_concat P (by decide), hall]

/-- A byte more keeps the stream free of the pattern exactly when it does not complete one. -/
theorem patternFree_concat (P : SyncPattern) (w : List Byte) (b : Byte) :
    PatternFree P (w ++ [b]) ↔ PatternFree P w ∧ ¬ P.toList <:+ w ++ [b] := by
  have hlength : (w ++ [b]).length = w.length + 1 := List.length_append
  have hall : (w ++ [b]).take (w.length + 1) = w ++ [b] := List.take_of_length_le hlength.le
  constructor
  case mp =>
    refine fun hfree => ⟨fun j hj => ?_, hall ▸ hfree _ hlength.ge⟩
    exact List.take_append_of_le_length (l₂ := [b]) hj ▸ hfree j (by omega)
  case mpr =>
    rintro ⟨hfree, hlast⟩ j hj
    rcases Nat.lt_or_eq_of_le hj with hshort | rfl
    · rw [hlength] at hshort
      rw [List.take_append_of_le_length (Nat.le_of_lt_succ hshort)]
      exact hfree j (Nat.le_of_lt_succ hshort)
    · rwa [hlength, hall]

/-- Under `WF_SYNC` no match but the empty one stands at the end of a longer match: it would repeat the first pattern
byte as the second or the third. -/
theorem eq_zero_of_take_suffix_take {P : SyncPattern} (hP : WfSync P) {m k : Nat} (hk : k ≤ 3) (hmk : m < k)
    (h : P.toList.take m <:+ P.toList.take k) : m = 0 := by
  by_contra hm
  obtain ⟨hsecond, hthird⟩ := hP
  have hmlength : (P.toList.take m).length = m := by simp; omega
  have hklength : (P.toList.take k).length = k := by simp; omega
  have hfirst : (P.toList.take m)[0] = (P.toList.take k)[(P.toList.take k).length - (P.toList.take m).length + 0] :=
    h.getElem (by omega)
  simp only [List.getElem_take, Vector.getElem_toList, hmlength, hklength, Nat.add_zero] at hfirst
  have hgap : k - m = 1 ∨ k - m = 2 := by omega
  rcases hgap with hgap | hgap
  · exact hsecond (by simpa only [hgap] using hfirst)
  · exact hthird (by simpa only [hgap] using hfirst)

/-! ### The longest match (R85, part 1) -/

theorem longestMatch_nil (P : SyncPattern) : LongestMatch P [] 0 := by
  refine ⟨⟨Nat.zero_le 3, List.nil_suffix⟩, fun m hm h => ?_⟩
  have hlength := h.length_le
  simp at hlength
  omega

/-- The expected byte makes the longest match one longer. -/
theorem LongestMatch.expected {P : SyncPattern} {w : List Byte} {k : Nat} (h : LongestMatch P w k) (hk : k < 3) :
    LongestMatch P (w ++ [P[k]]) (k + 1) := by
  obtain ⟨⟨-, hsuffix⟩, hlongest⟩ := h
  refine ⟨⟨hk, (take_succ_suffix_concat P (by omega) w _).2 ⟨hsuffix, rfl⟩⟩, fun m hm hmatch => ?_⟩
  cases m with
  | zero => exact Nat.zero_le _
  | succ m =>
    obtain ⟨hshorter, -⟩ := (take_succ_suffix_concat P (by omega) w _).1 hmatch
    exact Nat.succ_le_succ (hlongest m (by omega) hshorter)

/-- An unexpected byte can only begin a match: what it could carry on is a match at the end of the longest one, so the
empty one. -/
theorem LongestMatch.unexpected {P : SyncPattern} (hP : WfSync P) {w : List Byte} {k : Fin 4}
    (h : LongestMatch P w k) {b : Byte} (hb : b ≠ P[k]) :
    LongestMatch P (w ++ [b]) (if b = P[0] then (1 : Fin 4) else 0).val := by
  obtain ⟨⟨hk, hsuffix⟩, hlongest⟩ := h
  have hbegins : ∀ m, m + 1 ≤ 3 → P.toList.take (m + 1) <:+ w ++ [b] → m = 0 ∧ b = P[0] := by
    intro m hm hmatch
    obtain ⟨hshorter, hbyte⟩ := (take_succ_suffix_concat P (by omega) w b).1 hmatch
    have hle : m ≤ k.val := hlongest m (by omega) hshorter
    have hne : m ≠ k.val := by rintro rfl; exact hb hbyte
    have hinside : P.toList.take m <:+ P.toList.take k :=
      List.suffix_of_suffix_length_le hshorter hsuffix (by simp; omega)
    obtain rfl := eq_zero_of_take_suffix_take hP hk (by omega) hinside
    exact ⟨rfl, hbyte⟩
  split_ifs with hfirst
  case pos =>
    refine ⟨⟨by decide, (take_succ_suffix_concat P (by decide) w b).2 ⟨List.nil_suffix, hfirst⟩⟩, fun m hm h => ?_⟩
    cases m with
    | zero => exact Nat.zero_le 1
    | succ m =>
      obtain ⟨rfl, -⟩ := hbegins m hm h
      exact Nat.le_refl 1
  case neg =>
    refine ⟨⟨by decide, List.nil_suffix⟩, fun m hm h => ?_⟩
    cases m with
    | zero => exact Nat.le_refl 0
    | succ m =>
      obtain ⟨-, hbyte⟩ := hbegins m hm h
      exact absurd hbyte hfirst

/-- Hunting keeps the match index at the longest match, while the pattern does not occur. -/
theorem reachesSilently_longestMatch {s : State} (hs : s.phase = .hunt 0) (hP : WfSync s.cfg.syncPattern)
    {w : List Byte} (hfree : PatternFree s.cfg.syncPattern w) :
    ∃ k : Fin 4, ReachesSilently s w (.hunt k) ∧ LongestMatch s.cfg.syncPattern w k.val := by
  induction w using List.reverseRecOn with
  | nil => exact ⟨0, reachesSilently_nil hs, longestMatch_nil _⟩
  | append_singleton w b ih =>
    obtain ⟨hfree, hmarker⟩ := (patternFree_concat _ w b).1 hfree
    obtain ⟨k, hreach, hlongest⟩ := ih hfree
    by_cases hb : b = s.cfg.syncPattern[k]
    case pos =>
      have hk : k ≠ 3 := by
        rintro rfl
        have ⟨⟨_, hthree⟩, _⟩ := hlongest
        exact hmarker ((toList_suffix_concat _ w b).2 ⟨hthree, hb⟩)
      have hval : (k + 1).val = k.val + 1 := Fin.val_add_one_of_lt (Fin.lt_last_iff_ne_last.2 hk)
      refine ⟨k + 1, hreach.hunt_concat (huntNext_of_expected hb hk), ?_⟩
      rw [hval, hb]
      exact hlongest.expected (by omega)
    case neg => exact ⟨_, hreach.hunt_concat (huntNext_of_unexpected hb), hlongest.unexpected hP hb⟩

/-- Settles O14: the match index under hunting, with the streams left out but for the events. -/
theorem matchIndexIsTheLongestPatternPrefix : Obligations.MatchIndexIsTheLongestPatternPrefix := by
  intro s w hs hP hfree
  obtain ⟨k, ⟨t, hw, hphase, -, hrx, -⟩, hlongest⟩ := reachesSilently_longestMatch hs hP hfree
  exact ⟨t, k, hw, hphase, hlongest, hrx⟩

/-- Settles O15: before the last byte three pattern bytes are received, so the longest match is three, and the last
byte is the fourth. -/
theorem synchronizesAtTheFirstOccurrenceOfThePattern : Obligations.SynchronizesAtTheFirstOccurrenceOfThePattern := by
  intro s u b hs hP hfree hmarker
  obtain ⟨hthree, hb⟩ := (toList_suffix_concat _ u b).1 hmarker
  obtain ⟨k, hreach, -, hlongest⟩ := reachesSilently_longestMatch hs hP hfree
  have hk : 3 ≤ k.val := hlongest 3 (Nat.le_refl 3) hthree
  obtain rfl : k = 3 := by omega
  obtain ⟨t, hw, hphase, -, hrx, -⟩ := hreach.hunt_concat (huntNext_of_last hb)
  exact ⟨t, hw, hphase, hrx⟩

/-- Settles O16: of the three places where an occurrence could end inside the marker, the last two would repeat the
first pattern byte as the third or the second. -/
theorem markerAfterNoiseIsTheFirstOccurrence : Obligations.MarkerAfterNoiseIsTheFirstOccurrence := by
  rintro P noise ⟨hsecond, hthird⟩
  have hmarker : noise ++ P.toList.take 3 = noise ++ [P[0]] ++ [P[1]] ++ [P[2]] := by
    rw [syncPattern_toList]
    simp
  have hat0 : P.toList <:+ noise ++ [P[0]] ↔ P[0] = P[3] ∧ P.toList.take 3 <:+ noise := by
    rw [toList_suffix_concat, and_comm]
  have hat1 : ¬ P.toList <:+ noise ++ [P[0]] ++ [P[1]] := by
    rw [toList_suffix_concat, take_succ_suffix_concat P (by decide)]
    rintro ⟨⟨-, hrepeat⟩, -⟩
    exact hthird hrepeat
  have hat2 : ¬ P.toList <:+ noise ++ [P[0]] ++ [P[1]] ++ [P[2]] := by
    rw [toList_suffix_concat, take_succ_suffix_concat P (by decide), take_succ_suffix_concat P (by decide)]
    rintro ⟨⟨⟨-, hrepeat⟩, -⟩, -⟩
    exact hsecond hrepeat
  rw [hmarker, patternFree_concat, patternFree_concat, patternFree_concat, hat0]
  simp only [hat1, hat2, not_false_eq_true, and_true]

end Sys2Proof.Machine

/-! Frames received one after another (R91 to R103, R109, R159): a frame attempt comes to one completion, a valid frame's
wire image to the frame itself, and the encoder sends wire images of valid frames (R112, R127). -/

namespace Sys2Proof.Machine

/-! ### One frame attempt (R99, R159) -/

/-- What a completion emits, sends nothing beside, and where it leads. -/
theorem completeFrame_outcome (len : Byte) (body : List Byte) (chk : Byte) (s : State) :
    (completeFrame len body chk s).rxStream = s.rxStream ++
        [if csum len body = chk then .frameOut (mkFrame len body chk)
          else .resyncBadChecksum len (csum len body) chk] ∧
      (completeFrame len body chk s).phase =
        (if csum len body = chk ∧ s.cfg.staySynced = true then .len else .hunt 0) ∧
      (completeFrame len body chk s).txStream = s.txStream := by
  by_cases hchk : csum len body = chk
  case pos =>
    rw [completeFrame_of_match hchk, if_pos hchk]
    exact ⟨rfl, by simp [hchk], rfl⟩
  case neg =>
    rw [completeFrame_of_mismatch hchk, if_neg hchk, if_neg fun h => hchk h.1]
    exact ⟨rfl, rfl, rfl⟩

/-- Settles O8: before the checksum byte the attempt is in its body, and with it comes to the one completion. -/
theorem eachFrameAttemptHasOneOutcome : Obligations.EachFrameAttemptHasOneOutcome := by
  intro s len body chk hs hmin hmax hbody
  refine ⟨fun k hk => ?before, completeFrame len body chk s, performAll_rx_frame hs ⟨hmin, hmax⟩ hbody chk,
    completeFrame_outcome len body chk s⟩
  case before =>
    have hfit : (body.take k).length ≤ len.toNat := hbody ▸ List.length_take_le' k body
    exact ⟨_, performAll_rx_len_body hs ⟨hmin, hmax⟩ hfit, rfl, List.append_nil _, rfl⟩

/-- Settles O13: sums that agree modulo 256 give the same checksum, and the checksum is all that is compared. -/
theorem sumPreservingCorruptionPasses : Obligations.SumPreservingCorruptionPasses := by
  intro s len body body' hs hmin hmax _ hbody' hsum
  exact rx_frame_emits hs ⟨hmin, hmax⟩ hbody' ((csum_eq_iff len body' body).2 hsum.symm)

/-! ### The wire image of a valid frame (R66, R92, R102) -/

/-- From `LEN` the wire image of a valid frame leads to the emission of that frame. -/
theorem performAll_rx_wire {s : State} (hs : s.phase = .len) {f : Frame} (hf : f.Valid) :
    performAll (rx f.wire) s = .next (s.emitFrame (if s.cfg.staySynced then .len else .hunt 0) f) := by
  have ⟨hlen, _⟩ := hf
  calc performAll (rx f.wire) s
      = .next (completeFrame f.length f.body f.checksum s) := performAll_rx_frame hs hlen (valid_body_length hf) _
    _ = .next (s.emitFrame (if s.cfg.staySynced then .len else .hunt 0) f) := by
        rw [completeFrame_of_match (valid_csum hf), mkFrame_body hf]

/-- Settles O9: one frame emitted, and an emission sends nothing. -/
theorem validFrameIsDecodedFromItsWireImage : Obligations.ValidFrameIsDecodedFromItsWireImage :=
  fun _ _ hs hf => ⟨_, performAll_rx_wire hs hf, rfl, rfl, rfl⟩

/-- Settles O11: with `STAY_SYNCED` each frame ends in `LEN` again, from where the next one is received. -/
theorem backToBackFramesAreAllDecodedWhenStaySynced : Obligations.BackToBackFramesAreAllDecodedWhenStaySynced := by
  intro s frames hs hstay hframes
  induction frames generalizing s with
  | nil => exact ⟨s, rfl, (List.append_nil _).symm, hs⟩
  | cons f frames ih =>
    obtain ⟨hf, hframes⟩ := List.forall_mem_cons.1 hframes
    have hfirst := performAll_rx_wire hs hf
    rw [if_pos hstay] at hfirst
    obtain ⟨t, hrest, hrx, hphase⟩ := ih (s.emitFrame .len f) rfl hstay hframes
    refine ⟨t, ?_, hrx.trans (List.append_assoc ..), hphase⟩
    rw [List.flatMap_cons, rx_append, performAll_append hfirst, hrest]

/-! ### The marker and a frame (R100, R109) -/

/-- From `HUNT 0` the marker and the wire image of a valid frame emit exactly that frame. -/
theorem rxsync_wire_emits {s : State} (hs : s.phase = .hunt 0) {f : Frame} (hf : f.Valid) :
    ∃ t, performAll (rxsync s.cfg ++ rx f.wire) s = .next t ∧ t.rxStream = s.rxStream ++ [.frameOut f] ∧
      t.phase = (if s.cfg.staySynced then .len else .hunt 0) ∧ t.txStream = s.txStream := by
  obtain ⟨u, hmarker, hphase, hcfg, hrx, htx⟩ := reachesSilently_marker hs
  refine ⟨_, (performAll_append hmarker _).trans (performAll_rx_wire hphase hf), ?_, ?_, htx⟩
  · rw [State.emitFrame_rxStream, hrx]
  · rw [State.emitFrame_phase, hcfg]

/-- The record of the frame that `ENCODE` makes for a command and a payload (R105). -/
def encodedFrame (cmd : Byte) (payload : List Byte) : Frame where
  length := lo8 (2 + payload.length)
  command := cmd
  pad := some padByte
  payload := payload
  checksum := csum (lo8 (2 + payload.length)) (cmd :: padByte :: payload)

theorem wire_encodedFrame (cmd : Byte) (payload : List Byte) :
    (encodedFrame cmd payload).wire = encodeFrame cmd payload := (encodeFrame_eq cmd payload).symm

/-- A payload that fits gives a length byte that counts it with command and pad. -/
theorem encodedFrame_length_toNat (cmd : Byte) {payload : List Byte} (hfits : payload.length ≤ 252) :
    (encodedFrame cmd payload).length.toNat = payload.length + 2 := by
  rw [encodedFrame, lo8_toNat]
  omega

theorem encodedFrame_valid (cmd : Byte) {payload : List Byte} (hfits : payload.length ≤ 252) :
    (encodedFrame cmd payload).Valid := by
  have hlength := encodedFrame_length_toNat cmd hfits
  have hvalid := mkFrame_padded_valid cmd padByte payload (by omega) hlength
  rwa [mkFrame_padded _ _ _ _ _ hlength] at hvalid

/-- Settles O24: what the encoder sends is the wire image of `encodedFrame`. -/
theorem decodeOfEncodeGivesTheFrameBack : Obligations.DecodeOfEncodeGivesTheFrameBack := by
  intro s cmd payload hs hfits
  rw [← wire_encodedFrame]
  exact rxsync_wire_emits hs (encodedFrame_valid cmd hfits)

/-- Settles O12: the bad checksum resyncs to `HUNT 0`, where the marker and the next frame are received. -/
theorem badChecksumDoesNotCorruptTheNextFrame : Obligations.BadChecksumDoesNotCorruptTheNextFrame := by
  intro s len body chk cmd payload hs hmin hmax hbody hchk hfits
  have hbad : performAll (rx (len :: (body ++ [chk]))) s =
      .next (s.resync (.resyncBadChecksum len (csum len body) chk)) := by
    rw [performAll_rx_frame hs ⟨hmin, hmax⟩ hbody, completeFrame_of_mismatch hchk]
  obtain ⟨t, hnext, hrx, -⟩ := rxsync_wire_emits (s := s.resync (.resyncBadChecksum len (csum len body) chk)) rfl
    (encodedFrame_valid cmd hfits)
  refine ⟨t, ?_, hrx.trans (List.append_assoc ..)⟩
  rw [List.append_assoc, performAll_append hbad, ← wire_encodedFrame]
  exact hnext

/-! ### What the encoder and the builders send (R112, R127) -/

/-- A frame is only sent when its payload fits. -/
theorem frameResult_sent {cmd : Byte} {payload out : List Byte} (h : frameResult cmd payload = .sent out) :
    payload.length ≤ 252 ∧ out = encodeFrame cmd payload := by
  rcases frameResult_cases cmd payload with ⟨hfits, hsent⟩ | ⟨-, hreject⟩
  · exact ⟨hfits, TxResult.sent.inj (h.symm.trans hsent)⟩
  · exact nomatch h.symm.trans hreject

/-- Settles O22: the record is `encodedFrame`. -/
theorem sentFrameIsTheWireImageOfAValidRecord : Obligations.SentFrameIsTheWireImageOfAValidRecord := by
  intro s t cmd payload out h hsent
  cases (exec_txf cmd payload s).symm.trans h
  obtain ⟨hfits, rfl⟩ := frameResult_sent hsent
  have htwo : 2 ≤ (encodedFrame cmd payload).length.toNat := encodedFrame_length_toNat cmd hfits ▸ Nat.le_add_left 2 _
  exact ⟨encodedFrame cmd payload, (wire_encodedFrame cmd payload).symm, encodedFrame_valid cmd hfits, rfl, htwo, rfl,
    rfl⟩

/-- `i` is a builder whose frames carry the command `cmd` (R115). -/
def BuildsCommand (i : Instr) (cmd : Byte) : Prop :=
  (∃ a b c x y w f l, i = .cre a b c x y w f l) ∧ cmd = 0x10 ∨ (∃ a b c d e l, i = .chg a b c d e l) ∧ cmd = 0x11 ∨
    (∃ a b, i = .drw a b) ∧ cmd = 0x70 ∨ (∃ a b, i = .clr a b) ∧ cmd = 0x60

/-- A builder transmits the frame of its command, or, as `CRE` does with too long a text, rejects (R116). -/
theorem exec_of_buildsCommand {i : Instr} {cmd : Byte} (hi : BuildsCommand i cmd) (s : State) :
    (∃ payload, exec i s = .next (s.transmit (frameResult cmd payload))) ∨
      exec i s = .next (s.transmit (.reject .txTooLong)) := by
  rcases hi with ⟨⟨a, b, c, x, y, w, f, l, rfl⟩, rfl⟩ | ⟨⟨a, b, c, d, e, l, rfl⟩, rfl⟩ | ⟨⟨a, b, rfl⟩, rfl⟩ |
    ⟨⟨a, b, rfl⟩, rfl⟩
  case inl =>
    rcases Nat.lt_or_ge 241 l.length with hlong | hfits
    · exact .inr (exec_cre_of_oversized a b c x y w f hlong s)
    · exact .inl ⟨_, exec_cre_of_fits a b c x y w f hfits s⟩
  case inr.inl => exact .inl ⟨_, exec_chg a b c d e l s⟩
  case inr.inr.inl => exact .inl ⟨_, exec_drw a b s⟩
  case inr.inr.inr => exact .inl ⟨_, exec_clr a b s⟩

/-- Settles O23: what is sent is the frame of the builder's payload, with `encodedFrame` as its record. -/
theorem builderOutputIsAnEncodedFrame : Obligations.BuilderOutputIsAnEncodedFrame := by
  intro i cmd s t out hi h hsent
  rcases exec_of_buildsCommand hi s with ⟨payload, hexec⟩ | hexec <;> cases hexec.symm.trans h
  case inl =>
    obtain ⟨hfits, rfl⟩ := frameResult_sent hsent
    exact ⟨payload, encodedFrame cmd payload, hfits, rfl, (wire_encodedFrame cmd payload).symm,
      encodedFrame_valid cmd hfits, rfl⟩
  case inr => exact nomatch hsent

end Sys2Proof.Machine

/-! The names of error codes (R64, R132) and of the block's own error conditions (R134). -/

namespace Sys2Proof.Machine

/-! ### Error codes of the remote side (R130, R132) -/

theorem errName_regionExists (cfg : Config) : errName cfg 0x33 = .regionExists := if_pos rfl

theorem errName_invalidCommand {cfg : Config} (h : cfg.WfCodes) :
    errName cfg cfg.codeInvalidCommand = .invalidCommand := by
  obtain ⟨hexists, -, -⟩ := h
  exact (if_neg hexists.symm).trans (if_pos rfl)

theorem errName_invalidArgs {cfg : Config} (h : cfg.WfCodes) : errName cfg cfg.codeInvalidArgs = .invalidArgs := by
  obtain ⟨-, hexists, hcommand⟩ := h
  exact (if_neg hexists.symm).trans ((if_neg hcommand.symm).trans (if_pos rfl))

theorem errName_unclassified {cfg : Config} {c : Byte} (hexists : c ≠ 0x33) (hcommand : c ≠ cfg.codeInvalidCommand)
    (hargs : c ≠ cfg.codeInvalidArgs) : errName cfg c = .unclassified c :=
  (if_neg hexists).trans ((if_neg hcommand).trans (if_neg hargs))

/-- An error frame with a byte at the configured offset is classified by that byte's name. -/
theorem exec_cls_of_error {s : State} {f : Frame} {c : Byte} (hf : f.command = 0xFE)
    (hc : f.payload[s.cfg.errCodeOffset]? = some c) :
    exec (.cls f) s = .next (s.classified (.remoteError (errName s.cfg c))) := by
  rw [exec_cls, classify_of_error _ hf, errorOutcome_of_getElem? hc]

/-- Settles O33: distinct codes are named in whichever order they are tried. -/
theorem distinctErrorCodesKeepTheirNames : Obligations.DistinctErrorCodesKeepTheirNames := by
  intro s f c hcodes hf hc
  refine ⟨_, exec_cls_of_error hf hc, ?_, ?_, ?_, fun hexists hcommand hargs => ?_⟩ <;>
    rw [State.classified_outcome]
  · rintro rfl
    rw [errName_regionExists]
  · rintro rfl
    rw [errName_invalidCommand hcodes]
  · rintro rfl
    rw [errName_invalidArgs hcodes]
  · rw [errName_unclassified hexists hcommand hargs]

/-! ### The block's error conditions (R134) -/

/-- Settles O53: codes and reports as they are defined, for every byte an event carries. -/
theorem errorConditionsHaveTheirCodes : Obligations.ErrorConditionsHaveTheirCodes :=
  ⟨rfl, rfl, rfl, fun _ => rfl, fun _ _ _ => rfl, fun _ => rfl⟩

end Sys2Proof.Machine
